-- ==== Sys2Proof/Word.lean ====
section
/-! DEFINITION. The one word type of the part: a byte on the uplink or on a field port (10_link_operation_and_formats.md, section 10.6). -/

namespace Sys2Proof

/-- A byte of the uplink or of a field port (Table 10-10: 8 data bits). -/
abbrev Byte := BitVec 8

end Sys2Proof
end

