-- ==== Sys2Proof/Config.lean ====
section
/-! DEFINITION. The capacities of the part, which the spec fixes (R155), and the one choice between two of its rules that
it leaves open. -/

namespace Sys2Proof.Config

/-- Route entries (R1, R155). -/
def routeEntries : Nat := 24
/-- Places of the request queue (R150, R155). -/
def requestPlaces : Nat := 8
/-- Places of the reply queue (R152, R155). -/
def replyPlaces : Nat := 8
/-- Places of the busy list (R150, R155). -/
def busyPlaces : Nat := 8
/-- Places of the sample queue (R167, R155). -/
def samplePlaces : Nat := 32
/-- Curve points (R85, R155). -/
def curvePoints : Nat := 16
/-- Drop records (R130, R155). -/
def dropRecords : Nat := 8
/-- Event codes (R137, R155). -/
def eventCodes : Nat := 32
/-- Values of the counter holding set (Table 1-4). -/
def holdingValues : Nat := 54
/-- Magnitudes of the history (R106). -/
def historyPlaces : Nat := 8
/-- Values of a capture list (R128). -/
def capturePlaces : Nat := 16

/-- A free value: whether an impact sample after a catch gives its record a peak, a lead count and a capture list. R114, R115
and R127 say so of every impact sample; R113 and R125 say that a record of kind FALL_CAUGHT has none of them; no rule decides
between the two (log entry 27). -/
opaque caughtImpactCounts : Bool

end Sys2Proof.Config
end

