-- ==== Sys2Proof/Syntax.lean ====
section
/-! DEFINITION. The commands of the part: one constructor per row of spec/opcode_table.json, with the operands that come
from outside the part. A request row has no operand of its own: R152 to R154 separate the reception of a request
(REQUEST_FRAME_RECEIVED, which brings its tag, code and arguments) from its owner's event, which acts on the request in
progress (log entry 1). -/

namespace Sys2Proof

/-- The two removable pack slots (00_scope.md, section 3.1). -/
inductive Slot where
  | a
  | b
deriving DecidableEq, Repr

/-- The two ambient-light roles (section 4.1). -/
inductive LightRole where
  | front
  | top
deriving DecidableEq, Repr

/-- The four field ports (section 10.4). -/
inductive PortId where
  | fp0
  | fp1
  | fp2
  | fp3
deriving DecidableEq, Repr

/-- The debounced input pins (R24). -/
inductive InputPin where
  | pres (x : Slot)
  | lever (x : Slot)
deriving DecidableEq, Repr

/-- The levels at the input pins when a reset is released (R24, R34, R46, R48). -/
structure Pins where
  presA : Bool
  presB : Bool
  leverA : Bool
  leverB : Bool
  dcinOk : Bool
  brPres : Bool
deriving DecidableEq, Repr

/-- The bytes of one frame after its sync byte (Table 10-2): the kind byte, the length byte, the body and the CRC.
The body is empty where the receiver rejects the two header bytes (R164). -/
structure WireFrame where
  kind : Byte
  len : Byte
  body : List Byte
  crc : BitVec 16
deriving DecidableEq, Repr

/-- The commands: the rows of spec/opcode_table.json in the table's order. -/
inductive Instr where
  | powerOnReset (pins : Pins)
  | requestFrameReceived (frame : WireFrame)
  | uplinkFrameDiscarded (frame : WireFrame)
  | uplinkByteGap
  | sampleFrameReceived (port : PortId) (frame : WireFrame)
  | badSampleFrame (port : PortId) (frame : WireFrame)
  | portByteGap (port : PortId)
  | transmitComplete
  | passSendComplete (port : PortId)
  | rawInputChange (pin : InputPin) (level : Bool)
  | seating (slot : Slot)
  | presenceLoss (slot : Slot)
  | leverPress (slot : Slot)
  | leverRelease (slot : Slot)
  | dcinOkChange (level : Bool)
  | brPresChange (level : Bool)
  | qualTimeoutExpiry (slot : Slot)
  | gaugeStaleExpiry (slot : Slot)
  | releaseConfirmExpiry (slot : Slot)
  | unlockHoldExpiry (slot : Slot)
  | transferSettleExpiry
  | swapWindowExpiry
  | lightStaleExpiry (role : LightRole)
  | stepExpiry
  | accelStaleExpiry
  | protectHoldExpiry
  | holdOffExpiry
  | silenceTimeoutExpiry
  | identify
  | linkSet
  | linkStatus
  | routeWrite
  | routeRead
  | routeFlush
  | countSnapshot
  | countRead
  | pass
  | packProfileWrite
  | packStatus
  | packRelease
  | powerSet
  | bridgeSet
  | powerStatus
  | lightSet
  | curveWriteHeader
  | curveWritePoint
  | curveRead
  | blBias
  | blForce
  | blRelease
  | blStatus
  | motionSet
  | motionStatus
  | dropRead
  | dropRelease
  | eventConfig
  | noticeEnable
  | eventReadClear
  | holdNotices
  | restart
  | unknownRequest
  | uplinkFrameStart
  | portFrameStart (port : PortId)
deriving DecidableEq, Repr

end Sys2Proof
end

