-- ==== Sys2Proof/Decode.lean ====
section
/-! DEFINITION. The command that a table word spells. spec/opcode_table.json gives no row any bits, so no word spells a
command; requests are told apart by the request codes of section 10.6 (Machine/Operands.lean). -/

namespace Sys2Proof

/-- No row of the table has bits, so every word is refused (log entry 20). -/
def decodeTableWord (_nbits _w : Nat) : Option Instr := none

end Sys2Proof
end

