-- ==== Sys2Proof/Machine/Types.lean ====
section
/-! DEFINITION. The records and collections of the seven blocks, with the field names of the spec's tables. -/

namespace Sys2Proof.Machine

/-- The regimes of LKI (R168). -/
inductive Regime where
  | attended
  | unattended
deriving DecidableEq, Repr

/-- The motion phases (Table 6-1). -/
inductive Phase where
  | idle
  | falling
  | impact
  | settle
  | hold
deriving DecidableEq, Repr

/-! ### SRT (Chapter 1) -/

/-- What is done northbound with a matched sample (Table 1-1). -/
inductive Action where
  | forward
  | decimate
  | suppress
deriving DecidableEq, Repr

/-- The engine role that receives a copy of a matched sample (Table 1-2). -/
inductive TapRole where
  | noTap
  | accel
  | lightFront
  | lightTop
  | gaugeA
  | gaugeB
  | bridge
deriving DecidableEq, Repr

/-- A route entry (Table 1-1). -/
structure RouteEntry where
  valid : Bool
  pinned : Bool
  matchId : Byte
  mask : Byte
  action : Action
  factor : Nat
  tap : TapRole
  guarded : Bool
  port : PortId
  passed : Nat
  withheld : Nat
  phase : Nat
deriving DecidableEq, Repr

/-- The state of SRT (section 1.1). `overrideEntry` is the burst override record: the overridden entry while active. -/
structure Srt where
  table : List RouteEntry
  unmatched : Nat
  defaultRoute : Bool
  holding : List Nat
  overrideEntry : Option Nat
deriving DecidableEq, Repr

/-- A sample body as received (Table 10-3). -/
structure Sample where
  source : Byte
  seq : Byte
  kind : Byte
  payload : List Byte
deriving DecidableEq, Repr

/-! ### LKI (Chapter 10) -/

/-- A receiver hunts for a sync byte or is inside a frame (R164, R169). -/
inductive RxState where
  | hunting
  | inFrame
deriving DecidableEq, Repr

/-- A PASS payload in a port's outbound buffer (R170); `begun` says that its sending has begun (R160). -/
structure PortBuffer where
  dest : Byte
  payload : List Byte
  begun : Bool
deriving DecidableEq, Repr

/-- One field port (section 10.4). -/
structure FieldPort where
  rx : RxState
  errors : Nat
  buffer : Option PortBuffer
deriving DecidableEq, Repr

/-- The four field ports. -/
structure FieldPorts where
  fp0 : FieldPort
  fp1 : FieldPort
  fp2 : FieldPort
  fp3 : FieldPort
deriving DecidableEq, Repr

/-- The content of a NOTICE (R141, Table 10-9): the flag at place k of a set is that of event code k. -/
structure Notice where
  latched : List Bool
  live : List Bool
  level : Nat
deriving DecidableEq, Repr

/-- Reply statuses (Table 9-1, Table 10-6). -/
inductive Status where
  | ok
  | busy
  | unknown
  | badLength
  | badField
  | badIndex
  | refused
  | isProtected
  | noRoute
deriving DecidableEq, Repr

/-- Reason codes carried with REFUSED (Table 9-2). -/
inductive Reason where
  | motion
  | noSuccessor
  | bridgeLow
  | unattended
  | notReleasable
  | notForced
  | recordOpen
  | hardEvent
deriving DecidableEq, Repr

/-- A reply body (R154, Table 10-5). -/
structure Reply where
  tag : Byte
  status : Status
  payload : List Byte
deriving DecidableEq, Repr

/-- One place of the stream of replies (R151): a reply of RQH, held in the reply queue, or the tag of a BUSY reply of
LKI, held in the busy list. -/
inductive StreamItem where
  | reply (r : Reply)
  | busy (tag : Byte)
deriving DecidableEq, Repr

/-- A northbound frame in transmission (R166). -/
inductive OutFrame where
  | notice (n : Notice)
  | reply (r : Reply)
  | sample (x : Sample)
deriving DecidableEq, Repr

/-- The state of LKI (Chapters 9 and 10). The reply queue and the busy list are the two kinds of places of `stream`. -/
structure Lki where
  rx : RxState
  linkErrors : Nat
  regime : Regime
  silenceTimeout : Nat
  silenceTimer : Option Nat
  notice : Option Notice
  stream : List StreamItem
  samples : List Sample
  sending : Option OutFrame
  ports : FieldPorts
deriving DecidableEq, Repr

/-! ### RQH (Chapter 9) -/

/-- A request body (Table 10-5). -/
structure Request where
  tag : Byte
  code : Byte
  args : List Byte
deriving DecidableEq, Repr

/-- The state of RQH (section 9.1). `takenIn` is what RQH found when it examined its phase copy at the last taking of a
request: a RESTART is judged by it (R124, log entry 29). -/
structure Rqh where
  queue : List Request
  inProgress : Option Request
  phaseCopy : Phase
  takenIn : Phase
deriving DecidableEq, Repr

/-! ### PPC (Chapters 2 and 3) -/

/-- The pack states (Table 2-3). -/
inductive PackState where
  | empty
  | seated
  | qualifying
  | standby
  | online
  | releasing
  | unlocked
  | fault
deriving DecidableEq, Repr

/-- Why a pack entered FAULT (Table 2-1). -/
inductive FaultCause where
  | overtemp
  | undervolt
  | gaugeFault
  | qualifyTimeout
deriving DecidableEq, Repr

/-- The cause recorded at a PACK_LOST (Table 2-1). -/
inductive LossCause where
  | dislodged
  | pulled
deriving DecidableEq, Repr

/-- A GAUGE sample (Table 2-1, Table 10-4), in mV, mA, 0.1 degree and mWh. -/
structure GaugeSample where
  voltage : Nat
  current : Int
  temperature : Int
  energy : Nat
  fault : Bool
  charging : Bool
deriving DecidableEq, Repr

/-- A pin under debounce (R24): its raw level and the time left of the 16 ms, if running. -/
structure Debounce where
  raw : Bool
  timer : Option Nat
deriving DecidableEq, Repr

/-- A pack record (Table 2-1) with its four timers and its two pins. `presence` is present, `lever` pressed, `lock`
engaged, `switch` closed. -/
structure Pack where
  state : PackState
  presence : Bool
  lever : Bool
  lock : Bool
  switch : Bool
  sample : Option GaugeSample
  age : Option Nat
  stale : Bool
  qual : Nat
  allowance : Nat
  faultCause : Option FaultCause
  lastRefusal : Option Reason
  lossCause : Option LossCause
  lockPending : Bool
  qualTimer : Option Nat
  confirmTimer : Option Nat
  holdTimer : Option Nat
  staleTimer : Option Nat
  presPin : Debounce
  leverPin : Debounce
deriving DecidableEq, Repr

/-- The pack profile (Table 2-2), in the table's order; `imax` holds IMAX[0..3]. -/
structure PackProfile where
  qvMin : Nat
  qvMax : Nat
  qualNeeded : Nat
  qualTimeout : Nat
  tLow : Int
  tCut : Int
  vCut : Nat
  t1 : Int
  t2 : Int
  t3 : Int
  imax0 : Nat
  imax1 : Nat
  imax2 : Nat
  imax3 : Nat
  pmaxPack : Nat
  staleAllow : Nat
  gaugeStale : Nat
  rotateMwh : Nat
  rotateGap : Nat
  releaseMa : Nat
  releaseConfirm : Nat
  unlockHold : Nat
deriving DecidableEq, Repr

/-- A BRIDGE sample (Table 3-1, Table 10-4). -/
structure BridgeSample where
  voltage : Nat
  charge : Nat
  fault : Bool
deriving DecidableEq, Repr

/-- The swap window (Table 3-1): RUNNING carries the window remaining, in ms. -/
inductive Window where
  | none
  | waiting
  | running (ms : Nat)
deriving DecidableEq, Repr

/-- The bridge record (Table 3-1). `switch` is SW_BR closed, `alone` is carrying alone. -/
structure Bridge where
  fitted : Bool
  last : Option BridgeSample
  low : Bool
  switch : Bool
  alone : Bool
  window : Window
  exhausted : Bool
deriving DecidableEq, Repr

/-- The bridge settings (Table 3-2). -/
structure BridgeSettings where
  reserve : Nat
  swapMin : Nat
  compare : Nat
  pmax : Nat
deriving DecidableEq, Repr

/-- The power settings (Table 3-3). -/
structure PowerSettings where
  pSys : Nat
  dcLimit : Nat
  margin : Nat
deriving DecidableEq, Repr

/-- The budget record (section 3.4). -/
structure Budget where
  pAv : Nat
  aBl : Nat
  cPower : Nat
  delivered : Nat
deriving DecidableEq, Repr

/-- The state of PPC. -/
structure Ppc where
  packA : Pack
  packB : Pack
  profile : PackProfile
  bridge : Bridge
  bridgeSet : BridgeSettings
  power : PowerSettings
  budget : Budget
  dcinOk : Bool
  swDc : Bool
  brace : Bool
  regime : Regime
  settleTimer : Option Nat
  pBlMax : Nat
deriving DecidableEq, Repr

/-! ### LMC (Chapters 4 and 5) -/

/-- The modes of LMC (section 4.8). -/
inductive Mode where
  | curve
  | fail
  | forced
deriving DecidableEq, Repr

/-- The gain table K[0..3] of a role (Table 4-1), in 1/256 lux per count. -/
structure Gains where
  k0 : Nat
  k1 : Nat
  k2 : Nat
  k3 : Nat
deriving DecidableEq, Repr

/-- A light role record (Table 4-1); `live` is LIVE, `lux` is L. -/
structure LightRecord where
  live : Bool
  lux : Option Nat
  gains : Gains
  timer : Option Nat
deriving DecidableEq, Repr

/-- The measurement settings of Table 4-3 less the gains, and the output settings of Table 5-4. -/
structure LightSettings where
  wTop : Nat
  deadBand : Nat
  sUp : Nat
  sDown : Nat
  lightStale : Nat
  stepMs : Nat
  ru : Nat
  rd : Nat
  pBlMax : Nat
  cUnatt : Nat
deriving DecidableEq, Repr

/-- A curve point (Table 5-2). -/
structure CurvePoint where
  x : Nat
  y : Nat
deriving DecidableEq, Repr

/-- The curve (section 5.1): header, 16 points, segment latch, validation-pending, consistency. -/
structure Curve where
  n : Nat
  floor : Nat
  failLevel : Nat
  points : List CurvePoint
  latch : Option Nat
  validationPending : Bool
  consistent : Bool
deriving DecidableEq, Repr

/-- The state of LMC. `e`, `lg`, `f` are E, Lg and F; `t0`, `cPower`, `target` the target record; `out` is O. -/
structure Lmc where
  front : LightRecord
  top : LightRecord
  set : LightSettings
  e : Option Nat
  lg : Option Nat
  f : Option Nat
  valid : Bool
  freeze : Bool
  mode : Mode
  curve : Curve
  bias : Int
  forced : Option Nat
  t0 : Nat
  cPower : Nat
  target : Nat
  out : Nat
  regime : Regime
  stepTimer : Nat
deriving DecidableEq, Repr

/-! ### MTM (Chapters 6 and 7) -/

/-- The motion settings (Table 6-3). -/
structure MotionSettings where
  ffThresh : Nat
  ffCount : Nat
  ffMax : Nat
  impactThresh : Nat
  quietBand : Nat
  quietCount : Nat
  settleMax : Nat
  protectHold : Nat
  accelStale : Nat
deriving DecidableEq, Repr

/-- The kinds of a drop record (Table 7-2). -/
inductive DropKind where
  | fallLanded
  | fallCaught
  | fallAborted
  | shock
deriving DecidableEq, Repr

/-- The settle outcomes (Table 7-2). -/
inductive SettleOutcome where
  | quiet
  | unsettled
  | blind
deriving DecidableEq, Repr

/-- The carrying source at the start of a record (R126). -/
inductive Source where
  | none
  | dc
  | a
  | b
  | bridge
deriving DecidableEq, Repr

/-- The axes of the accelerometer (R114). -/
inductive Axis where
  | x
  | y
  | z
deriving DecidableEq, Repr

/-- The peak fields of a drop record, present together (R125). -/
structure Peak where
  magnitude : Nat
  axis : Axis
  negative : Bool
deriving DecidableEq, Repr

/-- A drop record (Table 7-2) with the open mark of its slot (Table 7-3). -/
structure DropRecord where
  seq : Nat
  isOpen : Bool
  kind : DropKind
  fallLength : Nat
  peak : Option Peak
  bounces : Nat
  outcome : SettleOutcome
  dislodgedA : Bool
  dislodgedB : Bool
  source : Source
  swapInProgress : Bool
  lead : Option Nat
  capture : List Nat
deriving DecidableEq, Repr

/-- The state of MTM: the detector record (Table 6-1), the settings and the drop ring, oldest record first. -/
structure Mtm where
  phase : Phase
  lowRun : Nat
  midRun : Nat
  quiet : Nat
  settled : Nat
  accelIndex : Option Nat
  lastMag : Option Nat
  history : List Nat
  live : Bool
  staleTimer : Option Nat
  holdTimer : Option Nat
  set : MotionSettings
  ring : List DropRecord
  nextSeq : Nat
deriving DecidableEq, Repr

/-! ### Output lines -/

/-- The levels driven on the output lines (Table 3-2): a switch is closed, a lock engaged, PARK asserted; BL is a level word. -/
structure Outputs where
  swDc : Bool
  swA : Bool
  swB : Bool
  swBr : Bool
  lockA : Bool
  lockB : Bool
  park : Bool
  bl : Nat
deriving DecidableEq, Repr

/-! ### NTU (Chapter 8) -/

/-- The 32 events (Table 8-2). -/
inductive Event where
  | packSeated (x : Slot)
  | packReady (x : Slot)
  | packFault (x : Slot)
  | packLost (x : Slot)
  | packRemoved (x : Slot)
  | swapRefused
  | swapReady
  | gaugeStale (x : Slot)
  | dcChange
  | bridgeAlone
  | bridgeLow
  | bridgeFault
  | bridgeExhausted
  | lightLost (r : LightRole)
  | curveFault
  | ceilingCut
  | fallStart
  | dropRecorded
  | motionBlind
  | routeCollision
  | tapMismatch
  | sampleOverflow
  | linkError
  | restarted
  | powerOn
deriving DecidableEq, Repr

/-- An event entry (Table 8-1). -/
structure EventEntry where
  live : Bool
  latched : Bool
  notified : Bool
  enable : Bool
  level : Nat
deriving DecidableEq, Repr

/-- The state of NTU (section 8.1). -/
structure Ntu where
  table : List EventEntry
  globalEnable : Bool
  holdOff : Option Nat
deriving DecidableEq, Repr

end Sys2Proof.Machine
end

