-- ==== Sys2Proof/Machine/Defaults.lean ====
section
/-! DEFINITION. The factory defaults of every table and setting, and the blocks as power-on reset leaves them with no
input pin active (the values of R9, R22, R23, R46, R48, R65, R83, R85, R104, R121, R135, R148, R163, R164, R167 to R170). -/

namespace Sys2Proof.Machine

/-! ### SRT -/

/-- Entries 0 to 5 of Table 1-3. -/
def RouteEntry.factory (source : Byte) (tap : TapRole) : RouteEntry :=
  { valid := true, pinned := false, matchId := source, mask := 0xFF#8, action := .forward, factor := 0, tap := tap
    guarded := false, port := .fp0, passed := 0, withheld := 0, phase := 0 }

/-- Entries 6 to 23 of Table 1-3. -/
def RouteEntry.unused : RouteEntry :=
  { valid := false, pinned := false, matchId := 0x00#8, mask := 0x00#8, action := .suppress, factor := 0, tap := .noTap
    guarded := false, port := .fp0, passed := 0, withheld := 0, phase := 0 }

/-- Table 1-3, the factory default route table (R9). -/
def factoryTable : List RouteEntry :=
  [RouteEntry.factory 0x10#8 .accel, RouteEntry.factory 0x20#8 .lightFront, RouteEntry.factory 0x21#8 .lightTop,
   RouteEntry.factory 0x30#8 .gaugeA, RouteEntry.factory 0x31#8 .gaugeB, RouteEntry.factory 0x38#8 .bridge]
  ++ List.replicate 18 RouteEntry.unused

/-- SRT after power-on reset and after RESTART (R9, Table 1-6). -/
def Srt.factory : Srt :=
  { table := factoryTable, unmatched := 0, defaultRoute := true, holding := List.replicate Config.holdingValues 0
    overrideEntry := none }

/-! ### LKI and RQH -/

/-- The factory default of SILENCE_TIMEOUT (R156), in units of 100 ms. -/
def factorySilence : Nat := 30

/-- A field port after power-on reset (R169, R170). -/
def FieldPort.initial : FieldPort := { rx := .hunting, errors := 0, buffer := none }

/-- LKI after power-on reset (R163, R164, R167 to R170). -/
def Lki.initial : Lki :=
  { rx := .hunting, linkErrors := 0, regime := .attended, silenceTimeout := factorySilence
    silenceTimer := some (factorySilence * 100), notice := none, stream := [], samples := [], sending := none
    ports := { fp0 := .initial, fp1 := .initial, fp2 := .initial, fp3 := .initial } }

/-- RQH after power-on reset (R163, R124). -/
def Rqh.initial : Rqh := { queue := [], inProgress := none, phaseCopy := .idle, takenIn := .idle }

/-! ### PPC -/

/-- The factory profile (Table 2-2). -/
def PackProfile.factory : PackProfile :=
  { qvMin := 12000, qvMax := 17400, qualNeeded := 3, qualTimeout := 5000, tLow := -200, tCut := 600, vCut := 11000
    t1 := 0, t2 := 100, t3 := 450, imax0 := 800, imax1 := 2000, imax2 := 4000, imax3 := 2500
    pmaxPack := 60000, staleAllow := 10000, gaugeStale := 1500, rotateMwh := 3000, rotateGap := 2000
    releaseMa := 50, releaseConfirm := 300, unlockHold := 15000 }

/-- The factory bridge settings (Table 3-2). -/
def BridgeSettings.factory : BridgeSettings := { reserve := 300, swapMin := 400, compare := 600, pmax := 25000 }

/-- The factory power settings (Table 3-3). -/
def PowerSettings.factory : PowerSettings := { pSys := 18000, dcLimit := 45000, margin := 2000 }

/-- The factory P_BL_MAX (Table 5-4). -/
def factoryPBlMax : Nat := 8000

/-- The levels driven while the reset pin is held, and through a supply-rise reset until the sequence of R46 begins, for the
raw levels of the input pins (R171). -/
def Pins.heldOutputs (pins : Pins) : Outputs :=
  { swDc := false, swA := false, swB := false, swBr := pins.brPres, lockA := pins.presA, lockB := pins.presB
    park := false, bl := 0 }

/-- A pack record at power-on reset (R22, R24, R46 step 6): the pins give presence and lever, and the switch and the lock
stand as the reset has driven them (R171). -/
def Pack.initial (present pressed switch lock : Bool) : Pack :=
  { state := if present then .seated else .empty, presence := present, lever := pressed, lock := lock, switch := switch
    sample := none, age := none, stale := false, qual := 0, allowance := 0, faultCause := none, lastRefusal := none
    lossCause := none, lockPending := false, qualTimer := none, confirmTimer := none, holdTimer := none
    staleTimer := if present then some PackProfile.factory.gaugeStale else none
    presPin := { raw := present, timer := none }, leverPin := { raw := pressed, timer := none } }

/-- PPC at power-on reset before the first selection run (R46 steps 1 to 6, R48, R65). The sequence starts from the levels
driven while the reset was held (R171): SW_BR is closed if BR_PRES is set. -/
def Ppc.initial (pins : Pins) : Ppc :=
  { packA := Pack.initial pins.presA pins.leverA (Pins.heldOutputs pins).swA (Pins.heldOutputs pins).lockA
    packB := Pack.initial pins.presB pins.leverB (Pins.heldOutputs pins).swB (Pins.heldOutputs pins).lockB
    profile := .factory
    bridge := { fitted := pins.brPres, last := none, low := false, switch := (Pins.heldOutputs pins).swBr, alone := false
                window := .none, exhausted := false }
    bridgeSet := .factory, power := .factory, budget := { pAv := 0, aBl := 0, cPower := 0, delivered := 0 }
    dcinOk := pins.dcinOk, swDc := (Pins.heldOutputs pins).swDc, brace := false, regime := .attended, settleTimer := none
    pBlMax := factoryPBlMax }

/-- No input pin is active: no pack, no lever, no DC, no bridge cell (log entry 5). -/
def Pins.inactive : Pins :=
  { presA := false, presB := false, leverA := false, leverB := false, dcinOk := false, brPres := false }

/-! ### LMC -/

/-- The factory gains (Table 4-3). -/
def Gains.factory : Gains := { k0 := 64, k1 := 256, k2 := 1024, k3 := 4096 }

/-- The factory settings of Tables 4-3 and 5-4. -/
def LightSettings.factory : LightSettings :=
  { wTop := 6, deadBand := 24, sUp := 1, sDown := 4, lightStale := 2000
    stepMs := 16, ru := 32, rd := 16, pBlMax := factoryPBlMax, cUnatt := 1024 }

/-- A light role record after either reset (R83, R84). -/
def LightRecord.factory : LightRecord := { live := false, lux := none, gains := .factory, timer := none }

/-- The factory curve (Tables 5-1 and 5-2, R85). -/
def Curve.factory : Curve :=
  { n := 4, floor := 150, failLevel := 3200
    points := [⟨0, 300⟩, ⟨2048, 900⟩, ⟨3328, 2400⟩, ⟨4352, 4095⟩] ++ List.replicate 12 ⟨0, 0⟩
    latch := none, validationPending := false, consistent := true }

/-- LMC after power-on reset (R83, R104). -/
def Lmc.initial : Lmc :=
  { front := .factory, top := .factory, set := .factory, e := none, lg := none, f := none, valid := false
    freeze := false, mode := .fail, curve := .factory, bias := 0, forced := none, t0 := 0, cPower := 0, target := 0
    out := 0, regime := .attended, stepTimer := LightSettings.factory.stepMs }

/-! ### MTM -/

/-- The factory motion settings (Table 6-3). -/
def MotionSettings.factory : MotionSettings :=
  { ffThresh := 350, ffCount := 8, ffMax := 800, impactThresh := 6000, quietBand := 150, quietCount := 200
    settleMax := 4000, protectHold := 500, accelStale := 50 }

/-- MTM after power-on reset (R121, R135). -/
def Mtm.initial : Mtm :=
  { phase := .idle, lowRun := 0, midRun := 0, quiet := 0, settled := 0, accelIndex := none, lastMag := none
    history := [], live := false, staleTimer := none, holdTimer := none, set := .factory, ring := [], nextSeq := 0 }

/-! ### NTU -/

/-- The code of an event (Table 8-2). -/
def Event.code : Event → Nat
  | .packSeated .a => 0
  | .packSeated .b => 1
  | .packReady .a => 2
  | .packReady .b => 3
  | .packFault .a => 4
  | .packFault .b => 5
  | .packLost .a => 6
  | .packLost .b => 7
  | .packRemoved .a => 8
  | .packRemoved .b => 9
  | .swapRefused => 10
  | .swapReady => 11
  | .gaugeStale .a => 12
  | .gaugeStale .b => 13
  | .dcChange => 14
  | .bridgeAlone => 15
  | .bridgeLow => 16
  | .bridgeFault => 17
  | .bridgeExhausted => 18
  | .lightLost .front => 19
  | .lightLost .top => 20
  | .curveFault => 21
  | .ceilingCut => 22
  | .fallStart => 23
  | .dropRecorded => 24
  | .motionBlind => 25
  | .routeCollision => 26
  | .tapMismatch => 27
  | .sampleOverflow => 28
  | .linkError => 29
  | .restarted => 30
  | .powerOn => 31

/-- The fixed level of a hard event (R137); none for a soft event. -/
def hardLevel (code : Nat) : Option Nat :=
  if code = 6 ∨ code = 7 then some 9 else if code = 18 then some 10 else if code = 24 then some 8 else none

/-- An entry after either reset, with the given live flag (R148, R149). -/
def EventEntry.initial (code : Nat) (live : Bool) : EventEntry :=
  { live := live, latched := false, notified := false, enable := false, level := (hardLevel code).getD 0 }

/-- The table after power-on reset: POWER_ON is latched and nothing else (R148); `live` gives the starting conditions. -/
def Ntu.initial (live : List Nat) : Ntu :=
  { table := (List.range Config.eventCodes).map fun k =>
      { EventEntry.initial k (live.contains k) with latched := k == Event.powerOn.code }
    globalEnable := false, holdOff := none }

end Sys2Proof.Machine
end

