-- ==== Sys2Proof/Machine/State.lean ====
section
/-! DEFINITION. The state of the machine as plain data, the reasons a step can stop, and the state after reset. -/

namespace Sys2Proof.Machine

/-- The state: the seven blocks of Table 3-1, each owning its part, and the queue of commands that wait. -/
structure State where
  lki : Lki
  srt : Srt
  rqh : Rqh
  ppc : Ppc
  lmc : Lmc
  mtm : Mtm
  ntu : Ntu
  pending : List Instr
deriving DecidableEq, Repr

/-- The part never stops: the spec gives every event and every request an effect. So there is no fault, and no
constructor. -/
inductive Fault where
deriving DecidableEq, Repr

/-- Reasons for a refusal. -/
inductive Refusal where
  /-- Raised by an arm of `exec` whose command has no meaning yet; safe, since the machine stops. No arm raises it. -/
  | notModelled (mnemonic : String)
deriving DecidableEq, Repr

/-- The machine after power-on reset with no input pin active (R46, R66; log entry 5): no source is closed, so the first
settlement gives C_power 0 and delivers nothing. The light roles are LOST and the accelerometer is BLIND (R139). -/
def State.reset : State :=
  { lki := .initial, srt := .factory, rqh := .initial, ppc := Ppc.initial Pins.inactive, lmc := .initial, mtm := .initial
    ntu := Ntu.initial [(Event.lightLost .front).code, (Event.lightLost .top).code, Event.motionBlind.code], pending := [] }

/-! Updates of one block; the lemmas about them are in Laws/State.lean. -/

def State.setLki (s : State) (x : Lki) : State := { s with lki := x }
def State.setSrt (s : State) (x : Srt) : State := { s with srt := x }
def State.setRqh (s : State) (x : Rqh) : State := { s with rqh := x }
def State.setPpc (s : State) (x : Ppc) : State := { s with ppc := x }
def State.setLmc (s : State) (x : Lmc) : State := { s with lmc := x }
def State.setMtm (s : State) (x : Mtm) : State := { s with mtm := x }
def State.setNtu (s : State) (x : Ntu) : State := { s with ntu := x }
def State.setPending (s : State) (x : List Instr) : State := { s with pending := x }

end Sys2Proof.Machine
end

