-- ==== Sys2Proof/Machine/Operands.lean ====
section
/-! DEFINITION. Bytes on the link: byte order, the CRC, the envelope and its checks, request codes, argument layouts and
payload layouts (section 10.6, R153, R164, R169, R172). -/

namespace Sys2Proof.Machine

/-! ### Byte order and widths (section 4.4, R172) -/

/-- A one-byte field. -/
def b8 (n : Nat) : List Byte := [BitVec.ofNat 8 n]
/-- A two-byte field, least significant byte first. -/
def le16 (n : Nat) : List Byte := [BitVec.ofNat 8 n, BitVec.ofNat 8 (n / 256)]
/-- A four-byte field, least significant byte first. -/
def le32 (n : Nat) : List Byte := le16 n ++ le16 (n / 65536)
/-- A signed two-byte field, two's complement (section 4.1). -/
def sle16 (z : Int) : List Byte := le16 (z % 65536).toNat
/-- A yes/no or on/off field: one byte holding 1 or 0 (R172). -/
def flag (b : Bool) : List Byte := b8 b.toNat
/-- An optional field of `w` bytes: a leading 1 and the value, or zeros (R172). -/
def optField {α : Type} (w : Nat) (enc : α → List Byte) : Option α → List Byte
  | none => 0#8 :: List.replicate w 0#8
  | some v => 1#8 :: enc v

/-- The byte at offset `i` as a number; 0 beyond the end, which no checked argument list reads. -/
def u8 (bs : List Byte) (i : Nat) : Nat := (bs.getD i 0#8).toNat
/-- The two-byte field at offset `i`. -/
def u16 (bs : List Byte) (i : Nat) : Nat := u8 bs i + 256 * u8 bs (i + 1)
/-- The four-byte field at offset `i`. -/
def u32 (bs : List Byte) (i : Nat) : Nat := u16 bs i + 65536 * u16 bs (i + 2)
/-- The signed two-byte field at offset `i`. -/
def s16 (bs : List Byte) (i : Nat) : Int :=
  let n := u16 bs i
  if n < 32768 then n else (n : Int) - 65536

/-- clamp(v, lo, hi) (section 4.1). -/
def clampNat (v lo hi : Nat) : Nat := if v < lo then lo else if hi < v then hi else v
/-- clamp on signed quantities (section 4.1). -/
def clampInt (v lo hi : Int) : Int := if v < lo then lo else if hi < v then hi else v
/-- The next value of a 16-bit saturating counter (section 4.1). -/
def satInc (n : Nat) : Nat := if n < 65535 then n + 1 else n

/-- A set of flags as a number, flag k at bit k (R172). -/
def flagsToNat (fs : List Bool) : Nat := fs.foldr (fun b acc => b.toNat + 2 * acc) 0
/-- A set of flags over the 32 event codes: four bytes, bit k being code k (R172). -/
def flagSet (fs : List Bool) : List Byte := le32 (flagsToNat fs)

/-! ### CRC and envelope (R164, Table 10-2) -/

/-- One shift of the CRC register: polynomial x^16 + x^12 + x^5 + 1 (R164). -/
def crcBit (r : BitVec 16) : BitVec 16 := if r.msb then (r <<< 1) ^^^ 0x1021#16 else r <<< 1
/-- One byte enters most significant bit first (R164). -/
def crcByte (r : BitVec 16) (b : Byte) : BitVec 16 :=
  crcBit (crcBit (crcBit (crcBit (crcBit (crcBit (crcBit (crcBit (r ^^^ (b.zeroExtend 16 <<< 8)))))))))
/-- The CRC of a byte string: the register starts at all ones, no final inversion (R164). -/
def crc16 (bs : List Byte) : BitVec 16 := bs.foldl crcByte 0xFFFF#16

/-- Frame kinds (Table 10-1). -/
def kindSample : Nat := 1
def kindReply : Nat := 2
def kindNotice : Nat := 3
def kindRequest : Nat := 8

/-- A frame with its length and CRC right, as a sender builds it. -/
def frameOf (kind : Nat) (body : List Byte) : WireFrame :=
  { kind := BitVec.ofNat 8 kind, len := BitVec.ofNat 8 body.length, body := body
    crc := crc16 (BitVec.ofNat 8 kind :: BitVec.ofNat 8 body.length :: body) }

/-- The bytes of a frame on the wire, sync byte first, CRC low byte first (Table 10-2, R164). -/
def wireBytes (f : WireFrame) : List Byte := 0xC3#8 :: f.kind :: f.len :: f.body ++ le16 f.crc.toNat

/-- The CRC covers the two header bytes and the body (R164). -/
def crcGood (f : WireFrame) : Bool := f.body.length == f.len.toNat && f.crc == crc16 (f.kind :: f.len :: f.body)

/-- The kind of a frame: bits 3 to 0 of the kind byte (Table 10-2). -/
def frameKind (f : WireFrame) : Nat := f.kind.toNat % 16

/-- The uplink receiver's checks (R164). The reserved bits of the kind byte are not checked (log entry 8). -/
def uplinkValid (f : WireFrame) : Bool :=
  frameKind f == kindRequest && f.len.toNat ≤ 96 && 2 ≤ f.len.toNat && crcGood f

/-- The sample kind of a sample's kind byte: bits 3 to 0 (Table 10-3). -/
def Sample.kindCode (x : Sample) : Nat := x.kind.toNat % 16

/-- The payload length that Table 10-4 fixes for kinds 1 to 4. -/
def payloadLength (kind : Nat) : Option Nat :=
  if kind = 1 then some 6 else if kind = 2 then some 3 else if kind = 3 then some 11 else if kind = 4 then some 5 else none

/-- A sample body (Table 10-3). -/
def sampleOf (body : List Byte) : Sample :=
  { source := body.getD 0 0#8, seq := body.getD 1 0#8, kind := body.getD 2 0#8, payload := body.drop 3 }

/-- A sample body on the wire, as it was received. -/
def Sample.body (x : Sample) : List Byte := x.source :: x.seq :: x.kind :: x.payload

/-- A field port's checks (R169). -/
def portFrameGood (f : WireFrame) : Bool :=
  frameKind f == kindSample && 3 ≤ f.len.toNat && f.len.toNat ≤ 48 && crcGood f
    && (sampleOf f.body).kindCode != 0
    && ((payloadLength (sampleOf f.body).kindCode).all fun n => (sampleOf f.body).payload.length == n)

/-- A request body (Table 10-5). -/
def requestOf (body : List Byte) : Request :=
  { tag := body.getD 0 0#8, code := body.getD 1 0#8, args := body.drop 2 }

/-- Status codes (Table 10-6). -/
def Status.code : Status → Nat
  | .ok => 0
  | .busy => 1
  | .unknown => 2
  | .badLength => 3
  | .badField => 4
  | .badIndex => 5
  | .refused => 6
  | .isProtected => 7
  | .noRoute => 8

/-- Reason codes (Table 10-6). -/
def Reason.code : Reason → Nat
  | .motion => 1
  | .noSuccessor => 2
  | .bridgeLow => 3
  | .unattended => 4
  | .notReleasable => 5
  | .notForced => 6
  | .recordOpen => 7
  | .hardEvent => 8

/-- The kind of a northbound frame (Table 10-1). -/
def OutFrame.kind : OutFrame → Nat
  | .notice _ => kindNotice
  | .reply _ => kindReply
  | .sample _ => kindSample

/-- The body of a northbound frame (R166, Tables 10-3, 10-5, 10-9). -/
def OutFrame.body : OutFrame → List Byte
  | .notice n => flagSet n.latched ++ flagSet n.live ++ b8 n.level
  | .reply r => r.tag :: b8 r.status.code ++ r.payload
  | .sample x => x.body

/-- What the transmitter sends for a frame: the envelope it builds itself, with its CRC (R166). -/
def OutFrame.wire (o : OutFrame) : List Byte := wireBytes (frameOf o.kind o.body)

/-- What a field port sends for a PASS payload: kind REQUEST, the destination ID and the payload (R170). -/
def PortBuffer.wire (b : PortBuffer) : List Byte := wireBytes (frameOf kindRequest (b.dest :: b.payload))

/-! ### Request codes, argument lengths, reserved bits (section 10.6, R153) -/

/-- The requests of Chapter 9, in the order of their codes. -/
inductive RequestCode where
  | identify
  | linkSet
  | linkStatus
  | routeWrite
  | routeRead
  | routeFlush
  | countSnapshot
  | countRead
  | pass
  | packProfileWrite
  | packStatus
  | packRelease
  | powerSet
  | bridgeSet
  | powerStatus
  | lightSet
  | curveWriteHeader
  | curveWritePoint
  | curveRead
  | blBias
  | blForce
  | blRelease
  | blStatus
  | motionSet
  | motionStatus
  | dropRead
  | dropRelease
  | eventConfig
  | noticeEnable
  | eventReadClear
  | holdNotices
  | restart
deriving DecidableEq, Repr

/-- The request code byte (section 10.6). -/
def RequestCode.byte : RequestCode → Byte
  | .identify => 0x01#8
  | .linkSet => 0x02#8
  | .linkStatus => 0x03#8
  | .routeWrite => 0x11#8
  | .routeRead => 0x12#8
  | .routeFlush => 0x13#8
  | .countSnapshot => 0x14#8
  | .countRead => 0x15#8
  | .pass => 0x16#8
  | .packProfileWrite => 0x21#8
  | .packStatus => 0x22#8
  | .packRelease => 0x23#8
  | .powerSet => 0x24#8
  | .bridgeSet => 0x25#8
  | .powerStatus => 0x26#8
  | .lightSet => 0x31#8
  | .curveWriteHeader => 0x32#8
  | .curveWritePoint => 0x33#8
  | .curveRead => 0x34#8
  | .blBias => 0x35#8
  | .blForce => 0x36#8
  | .blRelease => 0x37#8
  | .blStatus => 0x38#8
  | .motionSet => 0x41#8
  | .motionStatus => 0x42#8
  | .dropRead => 0x43#8
  | .dropRelease => 0x44#8
  | .eventConfig => 0x51#8
  | .noticeEnable => 0x52#8
  | .eventReadClear => 0x53#8
  | .holdNotices => 0x54#8
  | .restart => 0x7F#8

/-- Every request of the part. -/
def RequestCode.all : List RequestCode :=
  [.identify, .linkSet, .linkStatus, .routeWrite, .routeRead, .routeFlush, .countSnapshot, .countRead, .pass,
   .packProfileWrite, .packStatus, .packRelease, .powerSet, .bridgeSet, .powerStatus, .lightSet, .curveWriteHeader,
   .curveWritePoint, .curveRead, .blBias, .blForce, .blRelease, .blStatus, .motionSet, .motionStatus, .dropRead,
   .dropRelease, .eventConfig, .noticeEnable, .eventReadClear, .holdNotices, .restart]

/-- The request a code byte names; none is UNKNOWN (R153, section 10.6). -/
def RequestCode.ofByte (b : Byte) : Option RequestCode := RequestCode.all.find? fun c => c.byte == b

/-- The row of the table that carries the request out. -/
def RequestCode.row : RequestCode → Instr
  | .identify => .identify
  | .linkSet => .linkSet
  | .linkStatus => .linkStatus
  | .routeWrite => .routeWrite
  | .routeRead => .routeRead
  | .routeFlush => .routeFlush
  | .countSnapshot => .countSnapshot
  | .countRead => .countRead
  | .pass => .pass
  | .packProfileWrite => .packProfileWrite
  | .packStatus => .packStatus
  | .packRelease => .packRelease
  | .powerSet => .powerSet
  | .bridgeSet => .bridgeSet
  | .powerStatus => .powerStatus
  | .lightSet => .lightSet
  | .curveWriteHeader => .curveWriteHeader
  | .curveWritePoint => .curveWritePoint
  | .curveRead => .curveRead
  | .blBias => .blBias
  | .blForce => .blForce
  | .blRelease => .blRelease
  | .blStatus => .blStatus
  | .motionSet => .motionSet
  | .motionStatus => .motionStatus
  | .dropRead => .dropRead
  | .dropRelease => .dropRelease
  | .eventConfig => .eventConfig
  | .noticeEnable => .noticeEnable
  | .eventReadClear => .eventReadClear
  | .holdNotices => .holdNotices
  | .restart => .restart

/-- The argument length of a code, the total width of its fields (R153, R172). For PASS it is the least length, that of
the destination ID. -/
def RequestCode.argLength : RequestCode → Nat
  | .linkSet => 1
  | .routeWrite => 8
  | .routeRead => 1
  | .countSnapshot => 1
  | .countRead => 2
  | .pass => 1
  | .packProfileWrite => 51
  | .packStatus => 1
  | .packRelease => 1
  | .powerSet => 8
  | .bridgeSet => 10
  | .lightSet => 32
  | .curveWriteHeader => 5
  | .curveWritePoint => 5
  | .blBias => 2
  | .blForce => 2
  | .motionSet => 17
  | .dropRead => 3
  | .dropRelease => 2
  | .eventConfig => 3
  | .noticeEnable => 1
  | .eventReadClear => 4
  | .holdNotices => 2
  | _ => 0

/-- The length check of R153: exact, but for PASS, whose arguments need only hold the destination ID. -/
def RequestCode.lengthOk (c : RequestCode) (args : List Byte) : Bool :=
  if c = .pass then c.argLength ≤ args.length else args.length == c.argLength

/-- The reserved bits of a code's arguments as (offset, first reserved bit): the bits from there up to 7 are reserved
(Table 10-7 offset 1, R172 for yes/no and on/off bytes, log entry 13). The selector byte of DROP_READ is taken as such a byte
too: R172 gives it the values 1 and 0 alone, and the answer to any other is the model's choice (log entry 28). -/
def RequestCode.reserved : RequestCode → Option (Nat × Nat)
  | .routeWrite => some (1, 3)
  | .countSnapshot => some (0, 1)
  | .dropRead => some (0, 1)
  | .eventConfig => some (1, 1)
  | .noticeEnable => some (0, 1)
  | _ => none

/-- Some reserved bit of the arguments is set (R153). -/
def RequestCode.reservedSet (c : RequestCode) (args : List Byte) : Bool :=
  match c.reserved with
  | none => false
  | some (off, bit) => 2 ^ bit ≤ u8 args off

/-! ### Codes of named values (R172, Tables 10-7 and 10-8) -/

def slotOfCode (n : Nat) : Option Slot := if n = 0 then some .a else if n = 1 then some .b else none

def portCode : PortId → Nat
  | .fp0 => 0
  | .fp1 => 1
  | .fp2 => 2
  | .fp3 => 3

def portOfCode (n : Nat) : Option PortId :=
  if n = 0 then some .fp0 else if n = 1 then some .fp1 else if n = 2 then some .fp2 else if n = 3 then some .fp3 else none

def Action.code : Action → Nat
  | .forward => 0
  | .decimate => 1
  | .suppress => 2

def Action.ofCode (n : Nat) : Option Action :=
  if n = 0 then some .forward else if n = 1 then some .decimate else if n = 2 then some .suppress else none

def TapRole.code : TapRole → Nat
  | .noTap => 0
  | .accel => 1
  | .lightFront => 2
  | .lightTop => 3
  | .gaugeA => 4
  | .gaugeB => 5
  | .bridge => 6

def TapRole.ofCode (n : Nat) : Option TapRole :=
  if n = 0 then some .noTap else if n = 1 then some .accel else if n = 2 then some .lightFront
  else if n = 3 then some .lightTop else if n = 4 then some .gaugeA else if n = 5 then some .gaugeB
  else if n = 6 then some .bridge else none

def Regime.code : Regime → Nat
  | .attended => 0
  | .unattended => 1

def Phase.code : Phase → Nat
  | .idle => 0
  | .falling => 1
  | .impact => 2
  | .settle => 3
  | .hold => 4

def PackState.code : PackState → Nat
  | .empty => 0
  | .seated => 1
  | .qualifying => 2
  | .standby => 3
  | .online => 4
  | .releasing => 5
  | .unlocked => 6
  | .fault => 7

def FaultCause.code : FaultCause → Nat
  | .overtemp => 0
  | .undervolt => 1
  | .gaugeFault => 2
  | .qualifyTimeout => 3

def LossCause.code : LossCause → Nat
  | .dislodged => 0
  | .pulled => 1

def Window.code : Window → Nat
  | .none => 0
  | .waiting => 1
  | .running _ => 2

def Mode.code : Mode → Nat
  | .curve => 0
  | .fail => 1
  | .forced => 2

def DropKind.code : DropKind → Nat
  | .fallLanded => 0
  | .fallCaught => 1
  | .fallAborted => 2
  | .shock => 3

def SettleOutcome.code : SettleOutcome → Nat
  | .quiet => 0
  | .unsettled => 1
  | .blind => 2

def Source.code : Source → Nat
  | .none => 0
  | .dc => 1
  | .a => 2
  | .b => 3
  | .bridge => 4

def Axis.code : Axis → Nat
  | .x => 0
  | .y => 1
  | .z => 2

/-! ### Settings as arguments and payload (R172) -/

/-- The arguments of PACK_PROFILE_WRITE: the settings of Table 2-2 in the table's order. -/
def PackProfile.ofArgs (a : List Byte) : PackProfile :=
  { qvMin := u16 a 0, qvMax := u16 a 2, qualNeeded := u8 a 4, qualTimeout := u16 a 5, tLow := s16 a 7, tCut := s16 a 9
    vCut := u16 a 11, t1 := s16 a 13, t2 := s16 a 15, t3 := s16 a 17, imax0 := u16 a 19, imax1 := u16 a 21
    imax2 := u16 a 23, imax3 := u16 a 25, pmaxPack := u32 a 27, staleAllow := u32 a 31, gaugeStale := u16 a 35
    rotateMwh := u32 a 37, rotateGap := u32 a 41, releaseMa := u16 a 45, releaseConfirm := u16 a 47
    unlockHold := u16 a 49 }

/-- The profile as bytes, in the same order. -/
def PackProfile.bytes (p : PackProfile) : List Byte :=
  le16 p.qvMin ++ le16 p.qvMax ++ b8 p.qualNeeded ++ le16 p.qualTimeout ++ sle16 p.tLow ++ sle16 p.tCut ++ le16 p.vCut
    ++ sle16 p.t1 ++ sle16 p.t2 ++ sle16 p.t3 ++ le16 p.imax0 ++ le16 p.imax1 ++ le16 p.imax2 ++ le16 p.imax3
    ++ le32 p.pmaxPack ++ le32 p.staleAllow ++ le16 p.gaugeStale ++ le32 p.rotateMwh ++ le32 p.rotateGap
    ++ le16 p.releaseMa ++ le16 p.releaseConfirm ++ le16 p.unlockHold

/-- The arguments of POWER_SET (R61). -/
def PowerSettings.ofArgs (a : List Byte) : PowerSettings := { pSys := u16 a 0, dcLimit := u32 a 2, margin := u16 a 6 }
def PowerSettings.bytes (p : PowerSettings) : List Byte := le16 p.pSys ++ le32 p.dcLimit ++ le16 p.margin

/-- The arguments of BRIDGE_SET (R63). -/
def BridgeSettings.ofArgs (a : List Byte) : BridgeSettings :=
  { reserve := u16 a 0, swapMin := u16 a 2, compare := u16 a 4, pmax := u32 a 6 }
def BridgeSettings.bytes (p : BridgeSettings) : List Byte :=
  le16 p.reserve ++ le16 p.swapMin ++ le16 p.compare ++ le32 p.pmax

def Gains.ofArgs (a : List Byte) (i : Nat) : Gains :=
  { k0 := u16 a i, k1 := u16 a (i + 2), k2 := u16 a (i + 4), k3 := u16 a (i + 6) }
def Gains.bytes (g : Gains) : List Byte := le16 g.k0 ++ le16 g.k1 ++ le16 g.k2 ++ le16 g.k3

/-- The settings of LIGHT_SET after the two gain tables (R68, R102, Table 9-6). -/
def LightSettings.ofArgs (a : List Byte) : LightSettings :=
  { wTop := u8 a 16, deadBand := u8 a 17, sUp := u8 a 18, sDown := u8 a 19, lightStale := u16 a 20
    stepMs := u16 a 22, ru := u16 a 24, rd := u16 a 26, pBlMax := u16 a 28, cUnatt := u16 a 30 }
def LightSettings.bytes (p : LightSettings) : List Byte :=
  b8 p.wTop ++ b8 p.deadBand ++ b8 p.sUp ++ b8 p.sDown ++ le16 p.lightStale
    ++ le16 p.stepMs ++ le16 p.ru ++ le16 p.rd ++ le16 p.pBlMax ++ le16 p.cUnatt

/-- The arguments of MOTION_SET: Table 6-3 in the table's order (R109). -/
def MotionSettings.ofArgs (a : List Byte) : MotionSettings :=
  { ffThresh := u16 a 0, ffCount := u8 a 2, ffMax := u16 a 3, impactThresh := u16 a 5, quietBand := u16 a 7
    quietCount := u16 a 9, settleMax := u16 a 11, protectHold := u16 a 13, accelStale := u16 a 15 }
def MotionSettings.bytes (p : MotionSettings) : List Byte :=
  le16 p.ffThresh ++ b8 p.ffCount ++ le16 p.ffMax ++ le16 p.impactThresh ++ le16 p.quietBand ++ le16 p.quietCount
    ++ le16 p.settleMax ++ le16 p.protectHold ++ le16 p.accelStale

/-! ### Sample payloads (Table 10-4) -/

/-- A GAUGE payload with its fields clamped (R27). -/
def GaugeSample.ofPayload (p : List Byte) : GaugeSample :=
  { voltage := clampNat (u16 p 0) 0 20000, current := clampInt (s16 p 2) (-20000) 20000
    temperature := clampInt (s16 p 4) (-400) 1000, energy := clampNat (u32 p 6) 0 200000
    fault := (u8 p 10).testBit 0, charging := (u8 p 10).testBit 1 }

/-- A BRIDGE payload with its fields clamped (R50). -/
def BridgeSample.ofPayload (p : List Byte) : BridgeSample :=
  { voltage := clampNat (u16 p 0) 0 20000, charge := clampNat (u16 p 2) 0 65535, fault := (u8 p 4).testBit 0 }

end Sys2Proof.Machine
end

