-- ==== Sys2Proof/Machine/Ops.lean ====
section
/-! DEFINITION. The operations of the link that every block uses: the northbound transmitter, the taking of a request by
RQH, the placing of a reply, and one millisecond of the part's timers. -/

namespace Sys2Proof.Machine

/-- The other slot. -/
def otherSlot : Slot → Slot
  | .a => .b
  | .b => .a

def FieldPorts.get (p : FieldPorts) : PortId → FieldPort
  | .fp0 => p.fp0
  | .fp1 => p.fp1
  | .fp2 => p.fp2
  | .fp3 => p.fp3

def FieldPorts.set (p : FieldPorts) (i : PortId) (x : FieldPort) : FieldPorts :=
  match i with
  | .fp0 => { p with fp0 := x }
  | .fp1 => { p with fp1 := x }
  | .fp2 => { p with fp2 := x }
  | .fp3 => { p with fp3 := x }

def FieldPorts.map (p : FieldPorts) (g : FieldPort → FieldPort) : FieldPorts :=
  { fp0 := g p.fp0, fp1 := g p.fp1, fp2 := g p.fp2, fp3 := g p.fp3 }

/-- The place is one of the reply queue (R151). -/
def StreamItem.isReply : StreamItem → Bool
  | .reply _ => true
  | .busy _ => false

/-- The frame a place of the stream is sent as: a BUSY reply carries its tag and no payload (R150, R166). -/
def StreamItem.frame : StreamItem → OutFrame
  | .reply r => .reply r
  | .busy tag => .reply { tag := tag, status := .busy, payload := [] }

/-- Replies in the reply queue. -/
def Lki.replyCount (l : Lki) : Nat := l.stream.countP StreamItem.isReply
/-- Tags in the busy list. -/
def Lki.busyCount (l : Lki) : Nat := l.stream.countP fun x => !x.isReply

/-- The transmitter takes a frame whenever it is idle and a place holds one: the notice slot first, then the head of the
reply stream, then the head of the sample queue (R166). -/
def Lki.transmit (l : Lki) : Lki :=
  match l.sending with
  | some _ => l
  | none =>
    match l.notice with
    | some n => { l with sending := some (.notice n), notice := none }
    | none =>
      match l.stream with
      | x :: rest => { l with sending := some x.frame, stream := rest }
      | [] =>
        match l.samples with
        | x :: rest => { l with sending := some (.sample x), samples := rest }
        | [] => l

/-- RQH takes the head of its queue when no request is in progress, the reply queue has room and, for a RESTART, the
reply queue and the busy list are empty (R152); as it takes it, it examines its phase copy (R124). -/
def State.takeRequest (s : State) : State :=
  match s.rqh.inProgress, s.rqh.queue with
  | none, r :: rest =>
    if s.lki.replyCount < Config.replyPlaces && (r.code != RequestCode.restart.byte || s.lki.stream.isEmpty) then
      s.setRqh { s.rqh with queue := rest, inProgress := some r, takenIn := s.rqh.phaseCopy }
    else s
  | _, _ => s

/-- The request in progress is a RESTART that RQH took with its phase copy in IDLE (R124, R159). -/
def State.restartGranted (s : State) : Bool :=
  s.rqh.takenIn == .idle && s.rqh.inProgress.any fun r => r.code == RequestCode.restart.byte && r.args.isEmpty

/-- After a placing or the end of a transmission: the transmitter takes what it may, then RQH does (R152, R166). -/
def State.pump (s : State) : State := (s.setLki s.lki.transmit).takeRequest

/-- A place of the stream is filled at its tail (R150, R151, R154). -/
def Lki.place (l : Lki) (x : StreamItem) : Lki := { l with stream := l.stream ++ [x] }

/-- The owner's event places its reply at the tail of the reply queue and the request in progress ends (R154). -/
def State.answer (s : State) (tag : Byte) (st : Status) (payload : List Byte) : State :=
  ((s.setLki (s.lki.place (.reply { tag := tag, status := st, payload := payload }))).setRqh
    { s.rqh with inProgress := none }).pump

/-- What an owner gives for a request it was handed: the state its event left, and the reply's status and payload. -/
structure Answer where
  state : State
  status : Status
  payload : List Byte

/-- A request the owner refuses without an effect. -/
def Answer.refuse (s : State) (st : Status) : Answer := { state := s, status := st, payload := [] }
/-- A request refused with REFUSED and a reason, its one payload byte (R154). -/
def Answer.reason (s : State) (r : Reason) : Answer := { state := s, status := .refused, payload := b8 r.code }
/-- A request carried out. -/
def Answer.ok (s : State) (payload : List Byte) : Answer := { state := s, status := .ok, payload := payload }

/-- The event of the request in progress when its code is `c`: the checks of R153 in their order, then the owner, whose
event places the reply (R154). With no such request in progress the event does not take place (log entry 2). A NOTICE of an
event that the owner raises reaches an idle transmitter before the reply does (the model's choice, log entry 6). -/
def State.serve (s : State) (c : RequestCode) (owner : List Byte → State → Answer) : State :=
  match s.rqh.inProgress with
  | none => s
  | some r =>
    if r.code != c.byte then s
    else if !c.lengthOk r.args then s.answer r.tag .badLength []
    else if c.reservedSet r.args then s.answer r.tag .badField []
    else
      let ans := owner r.args s
      ans.state.answer r.tag ans.status ans.payload

/-! ### One millisecond -/

/-- A running timer loses one millisecond; at 0 it is due. -/
def tickTimer (t : Option Nat) : Option Nat := t.map (· - 1)

/-- A debounce that runs out with the raw level back at the debounced one ends without an event (R24). -/
def Debounce.tick (d : Debounce) (level : Bool) : Debounce :=
  match d.timer with
  | none => d
  | some t => { d with timer := if t ≤ 1 && d.raw == level then none else some (t - 1) }

/-- The timers of a pack record, and the gauge age, which saturates (R27). -/
def Pack.tick (p : Pack) : Pack :=
  { p with
    age := p.age.map satInc, qualTimer := tickTimer p.qualTimer, confirmTimer := tickTimer p.confirmTimer
    holdTimer := tickTimer p.holdTimer, staleTimer := tickTimer p.staleTimer
    presPin := p.presPin.tick p.presence, leverPin := p.leverPin.tick p.lever }

/-- A RUNNING window counts down (R58). -/
def Window.tick : Window → Window
  | .running ms => .running (ms - 1)
  | w => w

/-- One millisecond passes at every timer of the part (log entry 3). -/
def State.tick (s : State) : State :=
  { s with
    lki := { s.lki with silenceTimer := tickTimer s.lki.silenceTimer }
    ppc := { s.ppc with
      packA := s.ppc.packA.tick, packB := s.ppc.packB.tick, settleTimer := tickTimer s.ppc.settleTimer
      bridge := { s.ppc.bridge with window := s.ppc.bridge.window.tick } }
    lmc := { s.lmc with
      front := { s.lmc.front with timer := tickTimer s.lmc.front.timer }
      top := { s.lmc.top with timer := tickTimer s.lmc.top.timer }, stepTimer := s.lmc.stepTimer - 1 }
    mtm := { s.mtm with staleTimer := tickTimer s.mtm.staleTimer, holdTimer := tickTimer s.mtm.holdTimer }
    ntu := { s.ntu with holdOff := tickTimer s.ntu.holdOff } }

/-- The debounced change that is due at a slot's pins (R24). -/
def Pack.dueEvent (p : Pack) (x : Slot) : Option Instr :=
  if p.presPin.timer = some 0 then some (if p.presPin.raw then .seating x else .presenceLoss x)
  else if p.leverPin.timer = some 0 then some (if p.leverPin.raw then .leverPress x else .leverRelease x)
  else if p.qualTimer = some 0 then some (.qualTimeoutExpiry x)
  else if p.confirmTimer = some 0 then some (.releaseConfirmExpiry x)
  else if p.holdTimer = some 0 then some (.unlockHoldExpiry x)
  else if p.staleTimer = some 0 then some (.gaugeStaleExpiry x)
  else none

/-- The first event that the part makes by itself: the request in progress, then a due timer (log entry 3). -/
def State.ownEvent (s : State) : Option Instr :=
  match s.rqh.inProgress with
  | some r => some (((RequestCode.ofByte r.code).map RequestCode.row).getD .unknownRequest)
  | none =>
    if let some i := s.ppc.packA.dueEvent .a then some i
    else if let some i := s.ppc.packB.dueEvent .b then some i
    else if s.ppc.settleTimer = some 0 then some .transferSettleExpiry
    else if s.ppc.bridge.window = .running 0 then some .swapWindowExpiry
    else if s.lmc.front.timer = some 0 then some (.lightStaleExpiry .front)
    else if s.lmc.top.timer = some 0 then some (.lightStaleExpiry .top)
    else if s.lmc.stepTimer = 0 then some .stepExpiry
    else if s.mtm.staleTimer = some 0 then some .accelStaleExpiry
    else if s.mtm.holdTimer = some 0 then some .protectHoldExpiry
    else if s.ntu.holdOff = some 0 then some .holdOffExpiry
    else if s.lki.silenceTimer = some 0 then some .silenceTimeoutExpiry
    else none

end Sys2Proof.Machine
end

