-- ==== Sys2Proof/Machine/Flags.lean ====
section
/-! DEFINITION. The event flags of NTU: occurrence and latching, delivery of conditions, eligibility, the notice slot
(Chapter 8). -/

namespace Sys2Proof.Machine

/-- The codes in `codes` occur together: each is latched; notified keeps its value (R138). -/
def Ntu.occur (n : Ntu) (codes : List Nat) : Ntu :=
  { n with table := n.table.mapIdx fun k e => if codes.contains k then { e with latched := true } else e }

/-- The conditions of an owner are delivered: each live flag takes the delivered value (R139). -/
def Ntu.setLive (n : Ntu) (conds : List (Nat × Bool)) : Ntu :=
  { n with table := n.table.mapIdx fun k e => match conds.lookup k with
      | some v => { e with live := v }
      | none => e }

/-- The condition events whose delivery takes live from no to yes: the rising edges (R139). -/
def Ntu.rising (n : Ntu) (conds : List (Nat × Bool)) : List Nat :=
  (conds.filter fun (k, v) => v && !((n.table[k]?).any (·.live))).map Prod.fst

/-- A soft entry of this level may notify now (R140). -/
def Ntu.softPasses (n : Ntu) (e : EventEntry) : Bool :=
  e.enable && decide (1 ≤ e.level) && n.globalEnable && (decide (6 ≤ e.level) || n.holdOff.isNone)

/-- An entry is eligible to notify (R140). -/
def Ntu.eligible (n : Ntu) (k : Nat) (e : EventEntry) : Bool :=
  e.latched && !e.notified && ((hardLevel k).isSome || n.softPasses e)

/-- The levels of the eligible entries. -/
def Ntu.eligibleLevels (n : Ntu) : List Nat :=
  (n.table.zipIdx.filter fun (e, k) => n.eligible k e).map fun (e, _) => e.level

/-- Every eligible entry is marked notified (R141). -/
def Ntu.markNotified (n : Ntu) : Ntu :=
  { n with table := n.table.mapIdx fun k e => if n.eligible k e then { e with notified := true } else e }

/-- The content of a NOTICE that notifies entries of the highest level `level` (R141). -/
def Ntu.notice (n : Ntu) (level : Nat) : Notice :=
  { latched := n.table.map (·.latched), live := n.table.map (·.live), level := level }

/-- A new content in the notice slot: placed if the slot is empty, merged into the waiting NOTICE otherwise (R141). -/
def mergeNotice (waiting : Option Notice) (new : Notice) : Notice :=
  match waiting with
  | none => new
  | some w => { new with level := max w.level new.level }

/-- NTU judges eligibility and notifies every eligible entry together; an idle transmitter takes the NOTICE as it is
placed (R140, R141, R166). -/
def State.judge (s : State) : State :=
  match s.ntu.eligibleLevels with
  | [] => s
  | l :: ls =>
    let content := s.ntu.notice (ls.foldl max l)
    (s.setNtu s.ntu.markNotified).setLki { s.lki with notice := some (mergeNotice s.lki.notice content) }.transmit

/-- One event of a block reaches NTU: its pulse events and the rising edges of the conditions it delivers occur together
and are judged together (R138, R139). A fall of a condition alone is no occurrence. -/
def State.raise (s : State) (pulses : List Event) (conds : List (Event × Bool)) : State :=
  let cs := conds.map fun (e, v) => (e.code, v)
  let codes := pulses.map Event.code ++ s.ntu.rising cs
  let s' := s.setNtu ((s.ntu.setLive cs).occur codes)
  if codes.isEmpty then s' else s'.judge

end Sys2Proof.Machine
end

