-- ==== Sys2Proof/Machine/Luminance.lean ====
section
/-! DEFINITION. LMC: the measurement (Chapter 4), the curve, the target and the output (Chapter 5). -/

namespace Sys2Proof.Machine

/-! ### Measurement -/

def Lmc.role (m : Lmc) : LightRole → LightRecord
  | .front => m.front
  | .top => m.top

def Lmc.setRole (m : Lmc) (r : LightRole) (x : LightRecord) : Lmc :=
  match r with
  | .front => { m with front := x }
  | .top => { m with top := x }

/-- K[R], with a range above 3 taken as 3 (R69). -/
def Gains.at (g : Gains) (range : Nat) : Nat :=
  if range = 0 then g.k0 else if range = 1 then g.k1 else if range = 2 then g.k2 else g.k3

/-- Lux conversion (R69). -/
def luxOf (g : Gains) (count range : Nat) : Nat :=
  if count = 65535 then 200000 else min (count * g.at range / 256) 200000

/-- The front role's term: its L while it takes part, which needs LIVE and an L (R73). -/
def Lmc.frontTerm (m : Lmc) : Option Nat := if m.front.live then m.front.lux else none
/-- The top role's term, weighted by W_top (R73). -/
def Lmc.topTerm (m : Lmc) : Option Nat := if m.top.live then m.top.lux.map fun l => l * m.set.wTop / 16 else none

/-- Combination of the roles taking part (R73); none where no role takes part. -/
def Lmc.combine (m : Lmc) : Option Nat :=
  match m.frontTerm, m.topTerm with
  | some a, some b => some (max a b)
  | some a, none => some a
  | none, some b => some b
  | none, none => none

/-- Log conversion (R74). -/
def logLux (e : Nat) : Nat :=
  if e = 0 then 0
  else
    let k := Nat.log2 e
    256 * k + (if 8 ≤ k then e >>> (k - 8) else e * 2 ^ (8 - k)) % 256

/-- One filter step from F toward Lg (R75). -/
def filterStep (set : LightSettings) (f lg : Nat) : Nat :=
  if lg ≤ f + set.deadBand && f ≤ lg + set.deadBand then f
  else if f < lg then f + max ((lg - f) >>> set.sUp) 1
  else f - max ((f - lg) >>> set.sDown) 1

/-- E and Lg of a combination, and F set directly if unset, stepped otherwise (R70 steps 3 to 5). -/
def Lmc.measure (m : Lmc) : Lmc :=
  match m.combine with
  | none => m
  | some e =>
    let lg := logLux e
    { m with e := some e, lg := some lg, f := some (match m.f with | none => lg | some f => filterStep m.set f lg) }

/-- Valid, and the mode it gives outside FORCED (R77, R78). -/
def Lmc.revalidate (m : Lmc) : Lmc :=
  let v := m.f.isSome && (m.front.live || m.top.live)
  if v = m.valid then m
  else { m with valid := v, mode := if m.mode = .forced then .forced else if v then .curve else .fail }

/-! ### Curve evaluation -/

/-- Point i of the curve. -/
def Curve.point (c : Curve) (i : Nat) : CurvePoint := c.points.getD i ⟨0, 0⟩

/-- x rises strictly over points 0 to N - 1 (R85, R90). -/
def Curve.rises (c : Curve) : Bool := (List.range (c.n - 1)).all fun k => (c.point k).x < (c.point (k + 1)).x

/-- F lies within segment i (R89). -/
def Curve.inSegment (c : Curve) (i f : Nat) : Bool := (c.point i).x ≤ f && f < (c.point (i + 1)).x

/-- Interpolation in segment i, the quotient rounded toward zero (R91). -/
def Curve.interpolate (c : Curve) (i f : Nat) : Nat :=
  let p := c.point i
  let q := c.point (i + 1)
  ((p.y : Int) + Int.tdiv (((q.y : Int) - p.y) * ((f : Int) - p.x)) ((q.x : Int) - p.x)).toNat

/-- A full search (R90): the curve as it leaves it, and y unless the curve is inconsistent. -/
def Curve.fullSearch (c : Curve) (f : Nat) : Curve × Option Nat :=
  let c' := { c with validationPending := false, latch := none }
  if !c.rises then ({ c' with consistent := false }, none)
  else if f ≤ (c.point 0).x then ({ c' with consistent := true }, some (c.point 0).y)
  else if (c.point (c.n - 1)).x ≤ f then ({ c' with consistent := true }, some (c.point (c.n - 1)).y)
  else
    match (List.range (c.n - 1)).find? fun i => c.inSegment i f with
    | some i => ({ c' with consistent := true, latch := some i }, some (c.interpolate i f))
    | none => ({ c' with consistent := true }, none)

/-- An evaluation: from the latched segment where F lies in it, by a full search otherwise (R89). -/
def Curve.evaluate (c : Curve) (f : Nat) : Curve × Option Nat :=
  match c.latch with
  | some i => if c.inSegment i f then (c, some (c.interpolate i f)) else c.fullSearch f
  | none => c.fullSearch f

/-- clamp(y + U, floor, 4095) (R92). -/
def Lmc.biased (m : Lmc) (y : Nat) : Nat := (clampInt ((y : Int) + m.bias) m.curve.floor 4095).toNat

/-- T0 by the mode, with the curve as its evaluation leaves it (R92). F is set whenever the mode is CURVE (R90); with F
unset T0 would be held (log entry 22). -/
def Lmc.formT0 (m : Lmc) : Lmc :=
  match m.mode with
  | .fail => { m with t0 := m.curve.failLevel }
  | .forced => { m with t0 := m.forced.getD m.t0 }
  | .curve =>
    match m.f with
    | none => m
    | some f =>
      match m.curve.evaluate f with
      | (c, some y) => { m with curve := c, t0 := m.biased y }
      | (c, none) => { m with curve := c }

/-- The ceilings in force applied to T0 (R96). -/
def Lmc.ceiled (m : Lmc) : Nat :=
  let t := min m.t0 m.cPower
  if m.regime = .unattended then min t m.set.cUnatt else t

/-- A recomputation of the target (R96). -/
def Lmc.recompute (m : Lmc) : Lmc :=
  let m' := m.formT0
  { m' with target := m'.ceiled }

/-! ### Output -/

/-- A step of O toward T (R99). -/
def Lmc.stepOut (m : Lmc) : Nat :=
  if m.out < m.target then min m.target (m.out + m.set.ru)
  else if m.target < m.out then max m.target (m.out - m.set.rd)
  else m.out

/-- The conditions LMC owns: LIGHT_LOST_FRONT, LIGHT_LOST_TOP and CURVE_FAULT (Table 8-2). -/
def Lmc.conditions (m : Lmc) : List (Event × Bool) :=
  [(.lightLost .front, !m.front.live), (.lightLost .top, !m.top.live), (.curveFault, !m.curve.consistent)]

/-- The end of an LMC event: its state, its pulses and its conditions. -/
def State.lmcEnd (s : State) (m : Lmc) (pulses : List Event) : State := (s.setLmc m).raise pulses m.conditions

/-- O cut to a ceiling it stands above, with CEILING_CUT (R97, R98). -/
def State.lmcCut (s : State) (m : Lmc) (ceiling : Nat) : State :=
  if ceiling < m.out then s.lmcEnd { m with out := ceiling } [.ceilingCut] else s.lmcEnd m []

/-- PPC delivers a C_power value (R97). -/
def State.deliverCeiling (s : State) (c : Nat) : State :=
  s.lmcCut { s.lmc with cPower := c }.recompute c

/-- LKI delivers a change of regime to PPC (R38) and to LMC (R98). -/
def State.deliverRegime (s : State) (r : Regime) : State :=
  let m := { s.lmc with regime := r }.recompute
  let s' := s.setPpc { s.ppc with regime := r }
  if r = .unattended then s'.lmcCut m m.set.cUnatt else s'.lmcEnd m []

/-- MTM's phase leaves IDLE: the freeze begins (R79). -/
def State.freezeOn (s : State) : State := s.setLmc { s.lmc with freeze := true }

/-- The phase returns to IDLE: the freeze ends and the end is handed to the target stage (R80, R81). -/
def State.freezeOff (s : State) : State := s.lmcEnd { s.lmc with freeze := false }.recompute []

/-- A LIGHT sample is stored and measured, and the update recomputes the target (R70, R72). -/
def Lmc.storeSample (m : Lmc) (r : LightRole) (count range : Nat) : Lmc :=
  let rec' := m.role r
  let m1 := m.setRole r
    { rec' with live := true, lux := some (luxOf rec'.gains count range), timer := some m.set.lightStale }
  m1.measure.revalidate.recompute

/-- A LIGHT sample during a freeze refreshes liveness and re-evaluates valid; only a change of mode is handed to the target
stage (R79, R81). -/
def Lmc.refreshRole (m : Lmc) (r : LightRole) : Lmc :=
  let m1 := (m.setRole r { m.role r with live := true, timer := some m.set.lightStale }).revalidate
  if m1.mode = m.mode then m1 else m1.recompute

/-- A LIGHT sample taken at a light role (R70, R79). -/
def State.lightSample (s : State) (r : LightRole) (payload : List Byte) : State :=
  if s.lmc.freeze then s.lmcEnd (s.lmc.refreshRole r) []
  else s.lmcEnd (s.lmc.storeSample r (u16 payload 0) (u8 payload 2)) []

/-- LIGHT_STALE of a role expires (R71, R77). -/
def Lmc.loseRole (m : Lmc) (r : LightRole) : Lmc :=
  let m1 := (m.setRole r { m.role r with live := false, timer := none }).revalidate
  if m1.mode = m.mode then m1 else m1.recompute

/-- LMC at RESTART: what R84 and R105 return to the factory defaults; O, the target record, the regime copy and the step
timer are kept. -/
def Lmc.restarted (m : Lmc) : Lmc :=
  { Lmc.initial with
    t0 := m.t0, cPower := m.cPower, target := m.target, out := m.out, regime := m.regime, stepTimer := m.stepTimer }

/-- The level word BL shows O (R100). -/
def State.bl (s : State) : Nat := s.lmc.out

end Sys2Proof.Machine
end

