-- ==== Sys2Proof/Machine/Power.lean ====
section
/-! DEFINITION. PPC: pack records, source selection and transfers (Chapter 2); bridge, budget and swap window (Chapter 3). -/

namespace Sys2Proof.Machine

def Ppc.pack (p : Ppc) : Slot → Pack
  | .a => p.packA
  | .b => p.packB

def Ppc.setPack (p : Ppc) (x : Slot) (k : Pack) : Ppc :=
  match x with
  | .a => { p with packA := k }
  | .b => { p with packB := k }

/-- SW_DC or a pack switch is closed: a non-bridge source is closed (R52). -/
def Ppc.mainClosed (p : Ppc) : Bool := p.swDc || p.packA.switch || p.packB.switch

/-- The bridge is needed while brace is on or nothing else is closed (R53). -/
def Ppc.bridgeNeeded (p : Ppc) : Bool := p.brace || !p.mainClosed

/-- SW_BR closes if a bridge is fitted (R35 step 1, R52). -/
def Ppc.closeBridge (p : Ppc) : Ppc :=
  if p.bridge.fitted then { p with bridge := { p.bridge with switch := true } } else p

def Ppc.openBridge (p : Ppc) : Ppc := { p with bridge := { p.bridge with switch := false } }

/-- SW_BR opens unless the bridge is still needed (R53). -/
def Ppc.openBridgeIfFree (p : Ppc) : Ppc := if p.bridgeNeeded then p else p.openBridge

/-! ### Allowance (R55) -/

/-- IMAX of the band that the temperature selects (R55). -/
def PackProfile.imaxAt (f : PackProfile) (t : Int) : Nat :=
  if t < f.t1 then f.imax0 else if t < f.t2 then f.imax1 else if t < f.t3 then f.imax2 else f.imax3

/-- The allowance from a sample (R55). -/
def PackProfile.allowance (f : PackProfile) (g : GaugeSample) : Nat :=
  min f.pmaxPack (g.voltage * f.imaxAt g.temperature / 1000)

/-- A record's allowance recomputed: from its last sample, or STALE_ALLOW while stale; a record without a sample keeps its
allowance (R23, R32, R55). -/
def Pack.reallow (k : Pack) (f : PackProfile) : Pack :=
  match k.sample with
  | none => k
  | some g => { k with allowance := if k.stale then f.staleAllow else f.allowance g }

/-! ### Source selection and transfer (R33 to R36) -/

/-- TRANSFER_SETTLE, 20 ms and not settable (R36). -/
def settleMs : Nat := 20

/-- Remaining energy from the last gauge sample (R33). -/
def Pack.energy (k : Pack) : Nat := (k.sample.map (·.energy)).getD 0

/-- The STANDBY pack with the larger remaining energy, A on a tie (R33 step 3); none while DCIN_OK is set. -/
def Ppc.choose (p : Ppc) : Option Slot :=
  if p.dcinOk then none
  else if p.packA.state = .standby then
    if p.packB.state = .standby && decide (p.packA.energy < p.packB.energy) then some .b else some .a
  else if p.packB.state = .standby then some .b
  else none

/-- Steps 3 and 4 of a transfer: the new switch closes and TRANSFER_SETTLE starts (R35). -/
def Ppc.endTransfer (p : Ppc) (new : Option Slot) : Ppc :=
  match new with
  | none => { p with settleTimer := some settleMs }
  | some x => { p.setPack x { p.pack x with state := .online, switch := true } with settleTimer := some settleMs }

/-- The ONLINE pack `x` leaves for the record `k`, whose switch is open, by a transfer to the source that is then chosen
(R31, R35, R40). -/
def Ppc.transferFrom (p : Ppc) (x : Slot) (k : Pack) : Ppc :=
  let p1 := p.closeBridge.setPack x k
  p1.endTransfer p1.choose

/-- An ONLINE pack becomes STANDBY and its switch opens. -/
def Pack.standDown (k : Pack) : Pack := if k.state = .online then { k with state := .standby, switch := false } else k

/-- Step 1 of selection: SW_DC closes, an ONLINE pack becomes STANDBY, and SW_BR opens if SW_DC was open, the settle timer
is stopped and brace is off (R33, R34). -/
def Ppc.selectDc (p : Ppc) : Ppc :=
  let p1 := { p with swDc := true, packA := p.packA.standDown, packB := p.packB.standDown }
  if !p.swDc && p.settleTimer.isNone && !p.brace then p1.openBridge else p1

/-- The ONLINE pack, if any. -/
def Ppc.onlineSlot (p : Ppc) : Option Slot :=
  if p.packA.state = .online then some .a else if p.packB.state = .online then some .b else none

/-- Both conditions of step 2 under which the ONLINE pack `x` is not kept (R33). -/
def Ppc.rotates (p : Ppc) (x : Slot) : Bool :=
  decide ((p.pack x).energy < p.profile.rotateMwh) && (p.pack (otherSlot x)).state == .standby
    && decide ((p.pack x).energy + p.profile.rotateGap < (p.pack (otherSlot x)).energy)

/-- A selection run (R33). -/
def Ppc.select (p : Ppc) : Ppc :=
  if p.dcinOk then p.selectDc
  else
    match p.onlineSlot with
    | some x =>
      if p.rotates x then
        (p.closeBridge.setPack x { p.pack x with state := .standby, switch := false }).endTransfer (some (otherSlot x))
      else p
    | none =>
      match p.choose with
      | some y => p.closeBridge.endTransfer (some y)
      | none => p

/-! ### Budget and swap window (R56 to R60) -/

/-- The bridge is the only closed source (R53). -/
def Ppc.carriesAlone (p : Ppc) : Bool := p.bridge.switch && !p.mainClosed

/-- A non-bridge source is closed that was open at the start of the event (R56). -/
def Ppc.closedMainSince (before p : Ppc) : Bool :=
  (p.swDc && !before.swDc) || (p.packA.switch && !before.packA.switch) || (p.packB.switch && !before.packB.switch)

/-- P_av (R56 step 2). -/
def Ppc.availablePower (p : Ppc) : Nat :=
  (if p.swDc then p.power.dcLimit else 0)
    + (match p.onlineSlot with
       | some x => (p.pack x).allowance
       | none => 0)
    + (if p.carriesAlone then p.bridgeSet.pmax else 0)

/-- A_bl from P_av (R57). -/
def Ppc.backlightAllowance (p : Ppc) (pAv : Nat) : Nat := min (pAv - p.power.pSys - p.power.margin) p.pBlMax

/-- The swap window in ms at the backlight level `b` (R58). -/
def Ppc.windowMs (p : Ppc) (charge b : Nat) : Nat :=
  let load := p.power.pSys + b * p.pBlMax / 4095
  if charge ≤ p.bridgeSet.reserve then 0
  else if load = 0 then 600000
  else min ((charge - p.bridgeSet.reserve) * 3600000 / load) 600000

/-- The bridge record with a computed window: RUNNING, or exhausted if the computation gives 0 (R58, R59). -/
def Bridge.withWindow (b : Bridge) (ms : Nat) : Bridge :=
  if ms = 0 then { b with window := .none, exhausted := true } else { b with window := .running ms }

/-- Step 1 of a settlement: carrying alone, the beginning or the cancelling of the window, the end of exhaustion (R56). A
window that begins with a sample present is computed in step 4. -/
def Ppc.settleBridge (before p : Ppc) : Bridge :=
  let alone := p.carriesAlone
  let exhausted := p.bridge.exhausted && !before.closedMainSince p
  { p.bridge with
    alone := alone, exhausted := exhausted
    window :=
      if alone && !p.bridge.alone then (if exhausted then .none else .waiting)
      else if !alone && p.bridge.alone then .none
      else p.bridge.window }

/-- The window begins in this settlement and there is a sample to compute it from (R56 step 4). -/
def Ppc.windowStart (before p : Ppc) : Option BridgeSample :=
  if p.carriesAlone && !p.bridge.alone && !(before.settleBridge p).exhausted then p.bridge.last else none

/-- A settlement of an event that began in `before` and left `p`, with LMC's output O (R56, R57). -/
def Ppc.settle (before p : Ppc) (out : Nat) : Ppc :=
  let b1 := before.settleBridge p
  let pAv := p.availablePower
  let aBl := p.backlightAllowance pAv
  let c := if b1.exhausted then 0 else aBl * 4095 / p.pBlMax
  let b2 := match before.windowStart p with
    | some last => b1.withWindow (p.windowMs last.charge (min out c))
    | none => b1
  { p with
    bridge := b2
    budget := { pAv := pAv, aBl := aBl, cPower := if b2.exhausted then 0 else c, delivered := p.budget.delivered } }

/-- The conditions PPC owns (Table 8-2). -/
def Ppc.conditions (p : Ppc) : List (Event × Bool) :=
  [(.gaugeStale .a, p.packA.stale), (.gaugeStale .b, p.packB.stale), (.bridgeAlone, p.bridge.alone),
   (.bridgeLow, p.bridge.low), (.bridgeFault, p.bridge.last.any (·.fault))]

/-- The end of a PPC event without a settlement. -/
def State.ppcQuiet (s : State) (p : Ppc) (pulses : List Event) : State := (s.setPpc p).raise pulses p.conditions

/-- The end of a PPC event with its settlement: the events reach NTU together, and a C_power that differs from the value
last delivered is delivered to LMC (R56, R62). BRIDGE_EXHAUSTED is raised where the settlement exhausts the bridge (R59). -/
def State.ppcSettle (s : State) (p : Ppc) (pulses : List Event) : State :=
  let p1 := s.ppc.settle p s.lmc.out
  let more := if p1.bridge.exhausted && !p.bridge.exhausted then [Event.bridgeExhausted] else []
  if p1.budget.cPower = p1.budget.delivered then s.ppcQuiet p1 (pulses ++ more)
  else
    (s.ppcQuiet { p1 with budget := { p1.budget with delivered := p1.budget.cPower } } (pulses ++ more)).deliverCeiling
      p1.budget.cPower

/-- The levels of the main-path switches. -/
def Ppc.switches (p : Ppc) : Bool × Bool × Bool × Bool := (p.swDc, p.packA.switch, p.packB.switch, p.bridge.switch)

/-- The end of a PPC event that is settled if it changed a switch (R56). -/
def State.ppcEnd (s : State) (p : Ppc) (pulses : List Event) : State :=
  if p.switches = s.ppc.switches then s.ppcQuiet p pulses else s.ppcSettle p pulses

/-! ### Pack state machine (R26 to R32) -/

/-- Seating (R26). -/
def Ppc.seat (p : Ppc) (x : Slot) : Ppc :=
  let k := p.pack x
  (p.setPack x { k with
    state := .seated, presence := true, lock := true, sample := none, age := none, stale := false, qual := 0
    allowance := 0, faultCause := none, lastRefusal := none, staleTimer := some p.profile.gaugeStale
    presPin := { raw := true, timer := none } }).select

/-- The lock of a record is released if the motion phase is IDLE, and left pending otherwise (R42). -/
def Pack.releaseLock (k : Pack) (idle : Bool) : Pack := if idle then { k with lock := false } else { k with lockPending := true }

/-- Entry to FAULT (R31). -/
def Ppc.enterFault (p : Ppc) (x : Slot) (cause : FaultCause) (idle : Bool) : Ppc :=
  let k := p.pack x
  let k' := { k with state := .fault, switch := false, faultCause := some cause, qualTimer := none
                     staleTimer := none }.releaseLock idle
  (if k.state = .online then p.transferFrom x k' else p.setPack x k').select

/-- A sample is good in qualification (R28). -/
def PackProfile.good (f : PackProfile) (g : GaugeSample) : Bool :=
  decide (f.qvMin ≤ g.voltage) && decide (g.voltage ≤ f.qvMax) && decide (f.tLow ≤ g.temperature)
    && decide (g.temperature < f.tCut) && !g.fault

/-- The fault cause a sample shows in STANDBY or ONLINE, the first of the table's order (R30). -/
def PackProfile.faultOf (f : PackProfile) (g : GaugeSample) : Option FaultCause :=
  if g.fault then some .gaugeFault else if f.tCut ≤ g.temperature then some .overtemp
  else if g.voltage < f.vCut then some .undervolt else none

/-- GAUGE_STALE runs in this state (R32). -/
def PackState.gaugeTimed : PackState → Bool
  | .seated | .qualifying | .standby | .online | .releasing => true
  | .empty | .unlocked | .fault => false

/-- A gauge sample is stored (R27 steps 1 to 4). -/
def Pack.store (k : Pack) (f : PackProfile) (g : GaugeSample) : Pack :=
  let k1 := { k with sample := some g, age := some 0, stale := false
                     staleTimer := if k.state.gaugeTimed then some f.gaugeStale else k.staleTimer }
  if k.stale then k1.reallow f else k1

/-- A sample in QUALIFYING is tested (R28). -/
def Ppc.qualify (p : Ppc) (x : Slot) (g : GaugeSample) (idle : Bool) : Ppc × List Event :=
  let k := p.pack x
  if p.profile.good g then
    if p.profile.qualNeeded ≤ k.qual + 1 then
      ((p.setPack x ({ k with qual := k.qual + 1, state := .standby, qualTimer := none }.reallow p.profile)).select,
        [.packReady x])
    else (p.setPack x { k with qual := k.qual + 1 }, [])
  else
    let p1 := p.setPack x { k with qual := 0 }
    if g.fault then (p1.enterFault x .gaugeFault idle, [.packFault x]) else (p1, [])

/-- Confirmation of a RELEASING pack (R41). -/
def Ppc.confirm (p : Ppc) (x : Slot) (idle : Bool) : Ppc × List Event :=
  let k := p.pack x
  if idle then
    ((p.setPack x { k with confirmTimer := none, staleTimer := none, lock := false, state := .unlocked
                           holdTimer := some p.profile.unlockHold }).select, [.swapReady])
  else (p.setPack x { k with confirmTimer := none, lockPending := true }, [])

/-- A clamped GAUGE sample taken for slot `x` (R27, R28, R30, R41). -/
def Ppc.gaugeSample (p : Ppc) (x : Slot) (g : GaugeSample) (idle : Bool) : Ppc × List Event :=
  let k := p.pack x
  let p1 := p.setPack x (k.store p.profile g)
  match k.state with
  | .empty => (p, [])
  | .seated =>
    -- the change to QUALIFYING re-runs selection (R25); the sample is then the first of qualification (R28)
    let p2 := (p1.setPack x { p1.pack x with state := .qualifying, qualTimer := some p.profile.qualTimeout }).select
    p2.qualify x g idle
  | .qualifying => p1.qualify x g idle
  | .standby | .online =>
    match p.profile.faultOf g with
    | some cause => (p1.enterFault x cause idle, [.packFault x])
    | none =>
      let p2 := p1.setPack x ((p1.pack x).reallow p.profile)
      (if k.state = .online then p2.select else p2, [])
  | .releasing =>
    if !k.lockPending && decide (g.current ≤ p.profile.releaseMa) then p1.confirm x idle else (p1, [])
  | .unlocked | .fault => (p1, [])

/-- GAUGE_STALE expires (R32). -/
def Ppc.gaugeStale (p : Ppc) (x : Slot) : Ppc :=
  p.setPack x ({ p.pack x with staleTimer := none, stale := true }.reallow p.profile)

/-! ### Release (R37 to R43) -/

/-- The bridge is fitted and its last sample does not show the fault flag (R38). -/
def Bridge.usable (b : Bridge) : Bool := b.fitted && !b.last.any (·.fault)

/-- The charge test of R38: charge - BR_RESERVE is at least SWAP_MIN_MWH; it fails without a sample. -/
def Ppc.chargeTest (p : Ppc) : Bool :=
  p.bridge.last.any fun b => decide ((p.bridgeSet.swapMin : Int) ≤ (b.charge : Int) - p.bridgeSet.reserve)

/-- Why an ONLINE pack has no successor in the regime `r`; none if it has one (R38). -/
def Ppc.noSuccessor (p : Ppc) (x : Slot) (r : Regime) : Option Reason :=
  if (p.pack (otherSlot x)).state = .standby then none
  else if !p.bridge.usable then some .noSuccessor
  else if !p.chargeTest then some .bridgeLow
  else if r = .unattended then some .unattended
  else none

/-- What a release did (R37). -/
inductive ReleaseResult where
  | ignored
  | refused (r : Reason)
  | done
deriving DecidableEq, Repr

/-- A judged release: the records it leaves, what it did, and the events it raises. -/
structure Release where
  ppc : Ppc
  result : ReleaseResult
  pulses : List Event

/-- A refused release records its reason and raises SWAP_REFUSED (R39). -/
def Ppc.refuseRelease (p : Ppc) (x : Slot) (r : Reason) : Release :=
  { ppc := p.setPack x { p.pack x with lastRefusal := some r }, result := .refused r, pulses := [.swapRefused] }

/-- Entry to RELEASING (R40). -/
def Ppc.enterReleasing (p : Ppc) (x : Slot) : Ppc :=
  let k := p.pack x
  let k' := { k with state := .releasing, switch := false, confirmTimer := some p.profile.releaseConfirm }
  (if k.state = .online then p.transferFrom x k' else p.setPack x k').select

/-- A release of slot `x`, judged on the records, the motion phase and the regime (R37, R38, Table 2-4). -/
def Ppc.release (p : Ppc) (x : Slot) (idle : Bool) (regime : Regime) : Release :=
  let k := p.pack x
  match k.state with
  | .releasing | .unlocked | .fault | .empty => { ppc := p, result := .ignored, pulses := [] }
  | .seated | .qualifying =>
    if !idle then p.refuseRelease x .motion
    else
      { ppc := (p.setPack x { k with qualTimer := none, staleTimer := none, lock := false, state := .unlocked
                                     holdTimer := some p.profile.unlockHold }).select
        result := .done, pulses := [.swapReady] }
  | .standby =>
    if !idle then p.refuseRelease x .motion else { ppc := p.enterReleasing x, result := .done, pulses := [] }
  | .online =>
    if !idle then p.refuseRelease x .motion
    else
      match p.noSuccessor x regime with
      | some r => p.refuseRelease x r
      | none => { ppc := p.enterReleasing x, result := .done, pulses := [] }

/-- A pending lock release at the return to IDLE (R42). -/
def Pack.completeRelease (k : Pack) (f : PackProfile) : Pack :=
  if !k.lockPending then k
  else if k.state = .releasing then
    { k with lock := false, lockPending := false, state := .unlocked, staleTimer := none, holdTimer := some f.unlockHold }
  else { k with lock := false, lockPending := false }

/-- SWAP_READY is raised where a pending release completes a RELEASING pack (R42). -/
def Pack.completes (k : Pack) : Bool := k.lockPending && k.state == .releasing

/-- UNLOCK_HOLD expires with the pack present (R43). -/
def Ppc.relock (p : Ppc) (x : Slot) : Ppc :=
  (p.setPack x { p.pack x with
    holdTimer := none, lock := true, state := .qualifying, qual := 0
    qualTimer := some p.profile.qualTimeout, staleTimer := some p.profile.gaugeStale }).select

/-! ### Loss and removal (R44) -/

/-- The loss is a removal: the part had let the pack go (R44). -/
def PackState.removable : PackState → Bool
  | .unlocked | .fault => true
  | _ => false

/-- A presence loss (R44). -/
def Ppc.lose (p : Ppc) (x : Slot) (idle : Bool) : Ppc :=
  let k := p.pack x
  let p1 := if k.switch then p.closeBridge else p
  (p1.setPack x { k with
    state := .empty, presence := false, switch := false, lockPending := false
    lossCause := if k.state.removable then k.lossCause else some (if idle then .pulled else .dislodged)
    qualTimer := none, confirmTimer := none, holdTimer := none, staleTimer := none
    presPin := { raw := false, timer := none } }).select

/-! ### DC input, brace, bridge cell -/

/-- DCIN_OK becomes set or clear (R34). -/
def Ppc.dcChange (p : Ppc) (level : Bool) : Ppc :=
  let p1 := { p with dcinOk := level }
  if level then p1.select
  else
    let p2 := { p1.closeBridge with swDc := false }
    (p2.endTransfer p2.choose).select

/-- TRANSFER_SETTLE expires (R36). -/
def Ppc.settleExpiry (p : Ppc) : Ppc := { p with settleTimer := none }.openBridgeIfFree

/-- Brace begins (R54). -/
def Ppc.braceOn (p : Ppc) : Ppc := { p with brace := true }.closeBridge

/-- The phase returns to IDLE: brace ends and pending locks are released (R42, R54). -/
def Ppc.braceOff (p : Ppc) : Ppc :=
  let p1 := { p with brace := false }
  let p2 := if p1.settleTimer.isNone then p1.openBridgeIfFree else p1
  let p3 := { p2 with packA := p2.packA.completeRelease p.profile, packB := p2.packB.completeRelease p.profile }
  if p.packA.completes || p.packB.completes then p3.select else p3

/-- BR_PRES changes level (R49). A removal that cancels a swap window re-runs selection (R60). -/
def Ppc.bridgeFit (p : Ppc) (level : Bool) : Ppc :=
  if level then
    let p1 := { p with bridge := { p.bridge with fitted := true, last := none, low := false } }
    if p1.bridgeNeeded then p1.closeBridge else p1
  else
    let p1 := { p with bridge := { p.bridge with fitted := false, last := none, low := false, switch := false } }
    if p.bridge.alone && p.bridge.window != .none then p1.select else p1

/-- The low condition of a charge (Table 3-1). -/
def BridgeSettings.isLow (b : BridgeSettings) (charge : Nat) : Bool := charge ≤ b.compare

/-- A clamped BRIDGE sample is stored, low follows it, and the window is computed afresh while the bridge carries alone and
is not exhausted (R50, R58). -/
def Ppc.bridgeSample (p : Ppc) (g : BridgeSample) (out : Nat) : Ppc :=
  let b := { p.bridge with last := some g, low := p.bridgeSet.isLow g.charge }
  { p with bridge :=
      if b.alone && !b.exhausted then b.withWindow (p.windowMs g.charge (min out p.budget.cPower)) else b }

/-- The swap window runs out (R59): the bridge is exhausted and selection re-runs. -/
def Ppc.exhaust (p : Ppc) : Ppc := { p with bridge := { p.bridge with window := .none, exhausted := true } }.select

/-- Low re-evaluated against the last sample (R63). -/
def Bridge.relow (b : Bridge) (set : BridgeSettings) : Bridge := { b with low := b.last.any fun g => set.isLow g.charge }

/-! ### PPC events at the state -/

/-- The motion phase is IDLE (R37, R42, R44). -/
def State.idlePhase (s : State) : Bool := s.mtm.phase == .idle

/-- A GAUGE sample at the tap role of slot `x`; settled for the ONLINE pack or if a switch changed (R27, R56). -/
def State.gaugeTap (s : State) (x : Slot) (payload : List Byte) : State :=
  let r := s.ppc.gaugeSample x (GaugeSample.ofPayload payload) s.idlePhase
  if (s.ppc.pack x).state = .online then s.ppcSettle r.1 r.2 else s.ppcEnd r.1 r.2

/-- A BRIDGE sample at the BRIDGE role (R50); exhaustion by it re-runs selection and ends with a settlement (R59). -/
def State.bridgeTap (s : State) (payload : List Byte) : State :=
  if !s.ppc.bridge.fitted then s
  else
    let p := s.ppc.bridgeSample (BridgeSample.ofPayload payload) s.lmc.out
    if p.bridge.exhausted && !s.ppc.bridge.exhausted then s.ppcSettle p.select [.bridgeExhausted] else s.ppcQuiet p []

/-- MTM delivers a phase change away from IDLE (R54). -/
def State.braceOn (s : State) : State := s.ppcEnd s.ppc.braceOn []

/-- MTM delivers the return to IDLE (R42, R54). -/
def State.braceOff (s : State) : State :=
  s.ppcEnd s.ppc.braceOff (if s.ppc.packA.completes || s.ppc.packB.completes then [.swapReady] else [])

/-- LMC delivers a changed P_BL_MAX, and PPC settles (R62, R101). -/
def State.deliverPBlMax (s : State) (v : Nat) : State :=
  if v = s.ppc.pBlMax then s else s.ppcSettle { s.ppc with pBlMax := v } []

end Sys2Proof.Machine
end

