-- ==== Sys2Proof/Machine/Motion.lean ====
section
/-! DEFINITION. MTM: the magnitude, the phase machine and the drop ring (Chapters 6 and 7), and the delivery of a phase
change to the other blocks (R110). -/

namespace Sys2Proof.Machine

/-! ### Magnitude (R107, R108) -/

/-- The three clamped axes of an ACCEL sample (R107 step 1). -/
structure Accel where
  x : Int
  y : Int
  z : Int
deriving DecidableEq, Repr

/-- An ACCEL payload with its axes clamped (R107, Table 10-4). -/
def Accel.ofPayload (p : List Byte) : Accel :=
  { x := clampInt (s16 p 0) (-16000) 16000, y := clampInt (s16 p 2) (-16000) 16000, z := clampInt (s16 p 4) (-16000) 16000 }

/-- The largest absolute value of the axes. -/
def Accel.hi (a : Accel) : Nat := max (max a.x.natAbs a.y.natAbs) a.z.natAbs
/-- The sum of the two other absolute values, mid + lo. -/
def Accel.rest (a : Accel) : Nat := a.x.natAbs + a.y.natAbs + a.z.natAbs - a.hi
/-- The magnitude m (R108). -/
def Accel.magnitude (a : Accel) : Nat := a.hi + 3 * a.rest / 8

/-- The peak a sample would give: its magnitude and the axis of the largest absolute value, X before Y before Z (R114). -/
def Accel.peak (a : Accel) : Peak :=
  if a.x.natAbs = a.hi then { magnitude := a.magnitude, axis := .x, negative := decide (a.x < 0) }
  else if a.y.natAbs = a.hi then { magnitude := a.magnitude, axis := .y, negative := decide (a.y < 0) }
  else { magnitude := a.magnitude, axis := .z, negative := decide (a.z < 0) }

/-! ### Drop ring (R111, R114, R126 to R131) -/

/-- What a record reads from PPC when it opens (R126). -/
structure DropContext where
  source : Source
  swapInProgress : Bool

/-- A pack is RELEASING or UNLOCKED (R126). -/
def PackState.swapping : PackState → Bool
  | .releasing | .unlocked => true
  | _ => false

/-- The carrying source and swap in progress (R126). -/
def Ppc.dropContext (p : Ppc) : DropContext :=
  { source :=
      if p.swDc then .dc else if p.packA.switch then .a else if p.packB.switch then .b
      else if p.bridge.switch then .bridge else .none
    swapInProgress := p.packA.state.swapping || p.packB.state.swapping }

/-- A new record (R111, R126). -/
def DropRecord.opened (seq : Nat) (kind : DropKind) (fallLength : Nat) (c : DropContext) : DropRecord :=
  { seq := seq, isOpen := true, kind := kind, fallLength := fallLength, peak := none, bounces := 0
    outcome := .unsettled, dislodgedA := false, dislodgedB := false, source := c.source
    swapInProgress := c.swapInProgress, lead := none, capture := [] }

/-- The ring with room for one more record: with no FREE slot the oldest record is overwritten (R131). -/
def makeRoom (ring : List DropRecord) : List DropRecord :=
  if ring.length < Config.dropRecords then ring else ring.drop 1

/-- A record opens in the ring with the next sequence number (R131). -/
def Mtm.openRecord (m : Mtm) (kind : DropKind) (fallLength : Nat) (c : DropContext) : Mtm :=
  { m with ring := makeRoom m.ring ++ [DropRecord.opened m.nextSeq kind fallLength c]
           nextSeq := (m.nextSeq + 1) % 65536 }

/-- A change of the OPEN record, which is one at most (R130). -/
def Mtm.onOpen (m : Mtm) (g : DropRecord → DropRecord) : Mtm :=
  { m with ring := m.ring.map fun r => if r.isOpen then g r else r }

/-- The OPEN record, if any. -/
def Mtm.openRecord? (m : Mtm) : Option DropRecord := m.ring.find? (·.isOpen)

/-- The record takes its peak, lead count and capture list from impact samples. For a record of kind FALL_CAUGHT, which a
bounce or a further impact may reach, R113 and R125 say no, R114, R115 and R127 yes, and the value is free (log entry 27). -/
def DropRecord.takesImpacts (r : DropRecord) : Bool := r.kind != .fallCaught || Config.caughtImpactCounts

/-- An impact sample: the peak, and at the first one the head of the capture list from the history (R114, R127). -/
def DropRecord.impact (r : DropRecord) (a : Accel) (history : List Nat) : DropRecord :=
  match r.peak with
  | none =>
    if r.takesImpacts then
      { r with peak := some a.peak, lead := some history.length, capture := history ++ [a.magnitude] }
    else r
  | some q => if q.magnitude < a.magnitude then { r with peak := some a.peak } else r

/-- A sample taken while the record is OPEN with its head built is appended, up to 16 values (R128). -/
def DropRecord.append (r : DropRecord) (m : Nat) : DropRecord :=
  if r.lead.isSome && r.capture.length < Config.capturePlaces then { r with capture := r.capture ++ [m] } else r

/-- A DISLODGED loss of a slot is added to the record's set (R129). -/
def DropRecord.dislodge (r : DropRecord) (x : Slot) : DropRecord :=
  match x with
  | .a => { r with dislodgedA := true }
  | .b => { r with dislodgedB := true }

/-! ### The phase machine (R112 to R117, R119) -/

/-- What an MTM step leaves and the pulse events it raises. -/
structure Motion where
  mtm : Mtm
  pulses : List Event

/-- A count held at `top` (R112, R115). -/
def heldInc (n top : Nat) : Nat := if n < top then n + 1 else n

/-- Entry to HOLD: the open record takes its outcome and closes, DROP_RECORDED is raised, PROTECT_HOLD starts (R116). -/
def Mtm.enterHold (m : Mtm) (o : SettleOutcome) : Motion :=
  { mtm := { m.onOpen (fun r => { r with outcome := o, isOpen := false }) with
             phase := .hold, holdTimer := some m.set.protectHold, lowRun := 0, midRun := 0, quiet := 0 }
    pulses := [.dropRecorded] }

/-- A sample in IDLE or HOLD (R112, R117). A record that opens stops PROTECT_HOLD. -/
def Mtm.quietPhaseStep (m : Mtm) (a : Accel) (c : DropContext) : Motion :=
  if m.set.impactThresh ≤ a.magnitude then
    { mtm := { (m.openRecord .shock 0 c).onOpen (fun r => r.impact a m.history) with
               phase := .impact, lowRun := 0, holdTimer := none }
      pulses := [] }
  else if a.magnitude < m.set.ffThresh then
    if m.set.ffCount ≤ heldInc m.lowRun 255 then
      { mtm := { m.openRecord .fallAborted m.set.ffCount c with
                 phase := .falling, lowRun := 0, midRun := 0, holdTimer := none }
        pulses := [.fallStart] }
    else { mtm := { m with lowRun := heldInc m.lowRun 255 }, pulses := [] }
  else { mtm := { m with lowRun := 0 }, pulses := [] }

/-- A sample is quiet: the magnitude of m - 1000 is at most QUIET_BAND (R115). -/
def Mtm.isQuiet (m : Mtm) (mag : Nat) : Bool := mag ≤ 1000 + m.set.quietBand && 1000 ≤ mag + m.set.quietBand

/-- A sample in SETTLE past the bounce test (R115). -/
def Mtm.settleTests (m : Mtm) (mag : Nat) : Motion :=
  let m1 := { m with settled := heldInc m.settled 65535 }
  if m1.isQuiet mag then
    let m2 := { m1 with quiet := heldInc m1.quiet 65535 }
    if m2.set.quietCount ≤ m2.quiet then m2.enterHold .quiet
    else if m2.set.settleMax ≤ m2.settled then m2.enterHold .unsettled
    else { mtm := m2, pulses := [] }
  else
    let m2 := { m1 with quiet := 0 }
    if m2.set.settleMax ≤ m2.settled then m2.enterHold .unsettled else { mtm := m2, pulses := [] }

/-- Entry to SETTLE with its first sample. On the record's first entry the settle count becomes 0; a bounce, which its
bounce count shows, keeps it (R115, log entry 21). -/
def Mtm.enterSettle (m : Mtm) (mag : Nat) : Motion :=
  let bounced := m.openRecord?.any fun r => decide (0 < r.bounces)
  { m with phase := .settle, quiet := 0, settled := if bounced then m.settled else 0 }.settleTests mag

/-- A sample in FALLING (R113). -/
def Mtm.fallingStep (m : Mtm) (a : Accel) : Motion :=
  let m1 := m.onOpen fun r => { r with fallLength := heldInc r.fallLength 65535 }
  let aborts := m1.openRecord?.any fun r => decide (m.set.ffMax ≤ r.fallLength)
  if m.set.impactThresh ≤ a.magnitude then
    { mtm := { m1.onOpen (fun r => { r with kind := .fallLanded }.impact a m.history) with phase := .impact }, pulses := [] }
  else if m.set.ffThresh ≤ a.magnitude then
    let m2 := { m1 with midRun := heldInc m1.midRun 255 }
    if m.set.ffCount ≤ m2.midRun then (m2.onOpen fun r => { r with kind := .fallCaught }).enterSettle a.magnitude
    else if aborts then m2.enterHold .unsettled
    else { mtm := m2, pulses := [] }
  else
    let m2 := { m1 with midRun := 0 }
    if aborts then m2.enterHold .unsettled else { mtm := m2, pulses := [] }

/-- A sample in IMPACT (R114). -/
def Mtm.impactStep (m : Mtm) (a : Accel) : Motion :=
  if m.set.impactThresh ≤ a.magnitude then { mtm := m.onOpen fun r => r.impact a m.history, pulses := [] }
  else m.enterSettle a.magnitude

/-- A sample in SETTLE (R115). Whether a bounce after a catch gives the FALL_CAUGHT record a peak is free (log entry 27); its
kind stays FALL_CAUGHT. -/
def Mtm.settleStep (m : Mtm) (a : Accel) : Motion :=
  if m.set.impactThresh ≤ a.magnitude then
    { mtm := { m.onOpen (fun r => { r with bounces := heldInc r.bounces 15 }.impact a m.history) with
               phase := .impact, quiet := 0, settled := heldInc m.settled 65535 }
      pulses := [] }
  else m.settleTests a.magnitude

/-- The phase step of the present phase (R107 step 5), after the sample has entered the capture list of an OPEN record whose
head is built (R128). -/
def Mtm.phaseStep (m : Mtm) (a : Accel) (c : DropContext) : Motion :=
  let m1 := m.onOpen fun r => r.append a.magnitude
  match m.phase with
  | .idle | .hold => m1.quietPhaseStep a c
  | .falling => m1.fallingStep a
  | .impact => m1.impactStep a
  | .settle => m1.settleStep a

/-- The history with a magnitude at its tail, at most 8 values (R106). -/
def pushHistory (h : List Nat) (m : Nat) : List Nat :=
  (if h.length < Config.historyPlaces then h else h.drop 1) ++ [m]

/-- An ACCEL sample that reached MTM through entry `index` (R107). -/
def Mtm.accelSample (m : Mtm) (a : Accel) (index : Nat) (c : DropContext) : Motion :=
  let m1 := { m with
    lastMag := some a.magnitude, accelIndex := some index, staleTimer := some m.set.accelStale, live := true }
  let r := m1.phaseStep a c
  { r with mtm := { r.mtm with history := pushHistory r.mtm.history a.magnitude } }

/-- ACCEL_STALE expires (R118, R119). -/
def Mtm.goBlind (m : Mtm) : Motion :=
  let m1 := { m with staleTimer := none, live := false }
  match m.phase with
  | .idle | .hold => { mtm := { m1 with lowRun := 0 }, pulses := [] }
  | .falling | .impact | .settle => m1.enterHold .blind

/-- PROTECT_HOLD expires in HOLD (R117). The settle count is 0 in IDLE (R122, log entry 10). -/
def Mtm.endHold (m : Mtm) : Mtm := { m with phase := .idle, holdTimer := none, settled := 0 }

/-- MTM at RESTART (R122, R136). -/
def Mtm.restarted (m : Mtm) : Mtm := { m with set := .factory, lowRun := 0, accelIndex := none }

/-- The records older than and including the CLOSED record `seq` are freed (R133). -/
def freeThrough (ring : List DropRecord) (seq : Nat) : List DropRecord :=
  match ring with
  | [] => []
  | r :: rest => if r.seq = seq then rest else freeThrough rest seq

/-- PARK is asserted while the phase is other than IDLE (R123). -/
def State.park (s : State) : Bool := s.mtm.phase != .idle

/-- The levels that the part drives on its output lines (section 10.5); while reset is held they are `Pins.heldOutputs`. -/
def State.outputs (s : State) : Outputs :=
  { swDc := s.ppc.swDc, swA := s.ppc.packA.switch, swB := s.ppc.packB.switch, swBr := s.ppc.bridge.switch
    lockA := s.ppc.packA.lock, lockB := s.ppc.packB.lock, park := s.park, bl := s.bl }

/-! ### Delivery of a phase change (R110) -/

/-- The burst override begins on the entry of the most recent ACCEL sample, if MTM holds an index and the entry is valid
(R19). -/
def State.overrideOn (s : State) : State :=
  match s.mtm.accelIndex with
  | none => s
  | some i => if (s.srt.table[i]?).any (·.valid) then s.setSrt { s.srt with overrideEntry := some i } else s

/-- The burst override ends (R20). -/
def State.overrideOff (s : State) : State := s.setSrt { s.srt with overrideEntry := none }

/-- A change of the motion phase reaches PPC, LMC, SRT and RQH in the event that causes it (R110). -/
def State.deliverPhase (s : State) (old new : Phase) : State :=
  if old = new then s
  else
    let s1 :=
      if old = .idle then s.braceOn.freezeOn.overrideOn
      else if new = .idle then s.braceOff.freezeOff.overrideOff
      else s
    s1.setRqh { s1.rqh with phaseCopy := new }

/-- The end of an MTM event: its state, its events (MOTION_BLIND is the condition BLIND) and the delivery of its phase. -/
def State.mtmEnd (s : State) (r : Motion) : State :=
  ((s.setMtm r.mtm).raise r.pulses [(.motionBlind, !r.mtm.live)]).deliverPhase s.mtm.phase r.mtm.phase

/-- An ACCEL sample at the ACCEL role (R107). -/
def State.accelTap (s : State) (index : Nat) (payload : List Byte) : State :=
  s.mtmEnd (s.mtm.accelSample (Accel.ofPayload payload) index s.ppc.dropContext)

/-- PPC reports a DISLODGED loss of a slot; without an OPEN record nothing changes (R129). -/
def State.reportDislodged (s : State) (x : Slot) : State := s.setMtm (s.mtm.onOpen fun r => r.dislodge x)

end Sys2Proof.Machine
end

