-- ==== Sys2Proof/Machine/Router.lean ====
section
/-! DEFINITION. SRT: matching, the action in force, counters, tap delivery and the guard (Chapter 1). -/

namespace Sys2Proof.Machine

/-- An entry matches a source ID (R2). -/
def RouteEntry.takes (e : RouteEntry) (id : Byte) : Bool := e.valid && (id &&& e.mask) == (e.matchId &&& e.mask)

/-- The lowest index of a valid matching entry (R2). -/
def matchIndex (table : List RouteEntry) (id : Byte) : Option Nat := table.findIdx? fun e => e.takes id

/-- The action in force: FORWARD for the entry under burst override (R2, R19). -/
def Srt.inForce (r : Srt) (i : Nat) (e : RouteEntry) : Action := if r.overrideEntry = some i then .forward else e.action

/-- The sample queue has room (R3, R167). -/
def Lki.sampleRoom (l : Lki) : Bool := l.samples.length < Config.samplePlaces

/-- A sample is placed at the tail of the sample queue (R3). -/
def State.placeSample (s : State) (x : Sample) : State :=
  (s.setLki { s.lki with samples := s.lki.samples ++ [x] }).pump

/-- The entry at an index is changed. -/
def State.editEntry (s : State) (i : Nat) (g : RouteEntry → RouteEntry) : State :=
  s.setSrt { s.srt with table := s.srt.table.modify i g }

/-- The sample is offered to the queue through entry i: placed and counted as passed, or discarded at a full queue, counted
as withheld and reported by SAMPLE_OVERFLOW (R3). -/
def State.offer (s : State) (i : Nat) (x : Sample) : State :=
  if s.lki.sampleRoom then (s.editEntry i fun e => { e with passed := satInc e.passed }).placeSample x
  else (s.editEntry i fun e => { e with withheld := satInc e.withheld }).raise [.sampleOverflow] []

/-- The sample is withheld through entry i (R4, R5). -/
def State.withhold (s : State) (i : Nat) : State := s.editEntry i fun e => { e with withheld := satInc e.withheld }

/-- The next decimation phase: a phase that reaches the factor becomes 0 (R4). -/
def RouteEntry.advance (e : RouteEntry) : RouteEntry :=
  { e with phase := if e.phase + 1 < e.factor then e.phase + 1 else 0 }

/-- The northbound path of a sample matched by entry i (R3 to R5). -/
def State.northbound (s : State) (i : Nat) (e : RouteEntry) (x : Sample) : State :=
  match s.srt.inForce i e with
  | .forward => s.offer i x
  | .suppress => s.withhold i
  | .decimate => (if e.phase = 0 then s.offer i x else s.withhold i).editEntry i RouteEntry.advance

/-- The kind a tap role accepts (Table 1-2). -/
def TapRole.kind : TapRole → Nat
  | .noTap => 0
  | .accel => 1
  | .lightFront | .lightTop => 2
  | .gaugeA | .gaugeB => 3
  | .bridge => 4

/-- A copy goes to the engine of the tap role; the engine discards another kind with TAP_MISMATCH (R6). -/
def State.tapDeliver (s : State) (role : TapRole) (i : Nat) (x : Sample) : State :=
  if role = .noTap then s
  else if x.kindCode != role.kind then s.raise [.tapMismatch] []
  else
    match role with
    | .noTap => s
    | .accel => s.accelTap i x.payload
    | .lightFront => s.lightSample .front x.payload
    | .lightTop => s.lightSample .top x.payload
    | .gaugeA => s.gaugeTap .a x.payload
    | .gaugeB => s.gaugeTap .b x.payload
    | .bridge => s.bridgeTap x.payload

/-- An unmatched sample (R7). -/
def State.unmatchedSample (s : State) (x : Sample) : State :=
  let counted := s.setSrt { s.srt with unmatched := satInc s.srt.unmatched }
  if !s.srt.defaultRoute then counted
  else if s.lki.sampleRoom then s.placeSample x
  else counted.raise [.sampleOverflow] []

/-- A sample reaches SRT (R2, R6, R7). -/
def State.routeSample (s : State) (x : Sample) : State :=
  match matchIndex s.srt.table x.source with
  | none => s.unmatchedSample x
  | some i =>
    match s.srt.table[i]? with
    | none => s.unmatchedSample x
    | some e => (s.northbound i e x).tapDeliver e.tap i x

/-- The protective condition of a tap role (Table 1-5). -/
def State.protectiveCondition (s : State) : TapRole → Bool
  | .accel => s.mtm.phase != .idle
  | .gaugeA => s.ppc.packA.state == .qualifying || s.ppc.packA.state == .releasing
  | .gaugeB => s.ppc.packB.state == .qualifying || s.ppc.packB.state == .releasing
  | .bridge => s.ppc.bridge.switch
  | .lightFront | .lightTop | .noTap => false

/-- The 48 entry counters in the order of Table 1-4. -/
def Srt.entryCounters (r : Srt) : List Nat := r.table.flatMap fun e => [e.passed, e.withheld]

/-- The 54 live counters in the order of Table 1-4 (R14). -/
def State.liveCounters (s : State) : List Nat :=
  s.srt.entryCounters ++ [s.srt.unmatched, s.lki.linkErrors, s.lki.ports.fp0.errors, s.lki.ports.fp1.errors,
    s.lki.ports.fp2.errors, s.lki.ports.fp3.errors]

/-- Every counter of LKI at 0 (R14, R160). -/
def Lki.clearCounters (l : Lki) : Lki := { l with linkErrors := 0, ports := l.ports.map fun p => { p with errors := 0 } }

/-- Every counter of SRT at 0 (R14). -/
def Srt.clearCounters (r : Srt) : Srt :=
  { r with table := r.table.map fun e => { e with passed := 0, withheld := 0 }, unmatched := 0 }

end Sys2Proof.Machine
end

