-- ==== Sys2Proof/Machine/LinkEvents.lean ====
section
/-! DEFINITION. The events of the uplink and of the field ports (Chapter 10, section 9.1). -/

namespace Sys2Proof.Machine

/-- A discarded southbound frame: counted, and LINK_ERROR is raised (R164). -/
def State.linkError (s : State) : State :=
  (s.setLki { s.lki with linkErrors := satInc s.lki.linkErrors }).raise [.linkError] []

/-- Admission of a request (R150). -/
def State.admitRequest (s : State) (r : Request) : State :=
  if s.rqh.queue.length < Config.requestPlaces then (s.setRqh { s.rqh with queue := s.rqh.queue ++ [r] }).pump
  else if s.lki.busyCount < Config.busyPlaces then (s.setLki (s.lki.place (.busy r.tag))).pump
  else s.linkError

/-- The silence timer restarts with SILENCE_TIMEOUT, unless that setting is 0 (R165 step 1). -/
def Lki.restartSilence (l : Lki) : Lki :=
  if l.silenceTimeout = 0 then l else { l with silenceTimer := some (l.silenceTimeout * 100) }

/-- The regime returns to ATTENDED, with its delivery (R165 step 2). -/
def State.attend (s : State) : State :=
  if s.lki.regime = .unattended then (s.setLki { s.lki with regime := .attended }).deliverRegime .attended else s

/-- A valid REQUEST frame completes reception (R165). -/
def State.validRequest (s : State) (r : Request) : State := (s.setLki s.lki.restartSilence).attend.admitRequest r

/-- The uplink receiver completes the given frame: its checks decide, and it hunts again (R164, R165, log entry 7). -/
def State.receiveUplink (s : State) (f : WireFrame) : State :=
  let s1 := s.setLki { s.lki with rx := .hunting }
  if uplinkValid f then s1.validRequest (requestOf f.body) else s1.linkError

/-- One field port is changed. -/
def State.editPort (s : State) (p : PortId) (g : FieldPort → FieldPort) : State :=
  s.setLki { s.lki with ports := s.lki.ports.set p (g (s.lki.ports.get p)) }

/-- A field-port frame is discarded and counted; no event is raised (R169). -/
def State.portError (s : State) (p : PortId) : State :=
  s.editPort p fun x => { x with rx := .hunting, errors := satInc x.errors }

/-- REQUEST_FRAME_RECEIVED (R165). -/
def execRequestFrameReceived (f : WireFrame) (s : State) : Host.Outcome State Fault Refusal := .next (s.receiveUplink f)

/-- UPLINK_FRAME_DISCARDED (R164). -/
def execUplinkFrameDiscarded (f : WireFrame) (s : State) : Host.Outcome State Fault Refusal := .next (s.receiveUplink f)

/-- UPLINK_BYTE_GAP (R164): a gap between two bytes of a frame; while hunting there is no frame to discard. -/
def execUplinkByteGap (s : State) : Host.Outcome State Fault Refusal :=
  .next (if s.lki.rx = .inFrame then (s.setLki { s.lki with rx := .hunting }).linkError else s)

/-- UPLINK_FRAME_START (R164): a sync byte while hunting; inside a frame it is one of the frame's bytes. -/
def execUplinkFrameStart (s : State) : Host.Outcome State Fault Refusal := .next (s.setLki { s.lki with rx := .inFrame })

/-- PORT_BYTE_GAP (R169): a frame cut short by a gap is bad; while hunting there is no frame. -/
def execPortByteGap (p : PortId) (s : State) : Host.Outcome State Fault Refusal :=
  .next (if (s.lki.ports.get p).rx = .inFrame then s.portError p else s)

/-- PORT_FRAME_START (R169). -/
def execPortFrameStart (p : PortId) (s : State) : Host.Outcome State Fault Refusal :=
  .next (s.editPort p fun x => { x with rx := .inFrame })

/-- TRANSMIT_COMPLETE (R166): the frame in transmission is sent, and the transmitter takes the next one. -/
def execTransmitComplete (s : State) : Host.Outcome State Fault Refusal :=
  .next (if s.lki.sending.isSome then (s.setLki { s.lki with sending := none }).pump else s)

/-- PASS_SEND_COMPLETE (R170): the last byte of the payload is sent and the buffer empties. -/
def execPassSendComplete (p : PortId) (s : State) : Host.Outcome State Fault Refusal :=
  .next (s.editPort p fun x => { x with buffer := none })

/-- SILENCE_TIMEOUT_EXPIRY (R168). -/
def execSilenceTimeoutExpiry (s : State) : Host.Outcome State Fault Refusal :=
  .next (if s.lki.silenceTimer.isSome then
      (s.setLki { s.lki with silenceTimer := none, regime := .unattended }).deliverRegime .unattended
    else s)

end Sys2Proof.Machine
end

