-- ==== Sys2Proof/Machine/PinEvents.lean ====
section
/-! DEFINITION. The events of the discrete lines (sections 2.3, 2.7, 2.8, 3.1; R24, R26, R34, R37, R44, R49). -/

namespace Sys2Proof.Machine

/-- The debounce time of R24, in ms. -/
def debounceMs : Nat := 16

/-- A raw change starts or restarts the debounce of the pin (R24). -/
def Debounce.change (d : Debounce) (level : Bool) : Debounce :=
  if d.raw = level then d else { raw := level, timer := some debounceMs }

/-- One pack record is changed, with no event of PPC. -/
def State.editPack (s : State) (x : Slot) (g : Pack → Pack) : State := s.setPpc (s.ppc.setPack x (g (s.ppc.pack x)))

/-- RAW_INPUT_CHANGE (R24). -/
def execRawInputChange (pin : InputPin) (level : Bool) (s : State) : Host.Outcome State Fault Refusal :=
  .next (match pin with
    | .pres x => s.editPack x fun k => { k with presPin := k.presPin.change level }
    | .lever x => s.editPack x fun k => { k with leverPin := k.leverPin.change level })

/-- SEATING (R26): the debounced presence becomes present. -/
def execSeating (x : Slot) (s : State) : Host.Outcome State Fault Refusal :=
  .next (if (s.ppc.pack x).presence then s else s.ppcEnd (s.ppc.seat x) [.packSeated x])

/-- PRESENCE_LOSS (R44): the debounced presence becomes absent; a DISLODGED loss is reported to MTM (R129). -/
def execPresenceLoss (x : Slot) (s : State) : Host.Outcome State Fault Refusal :=
  let k := s.ppc.pack x
  .next (if !k.presence then s
    else
      let s1 := s.ppcEnd (s.ppc.lose x s.idlePhase) [if k.state.removable then .packRemoved x else .packLost x]
      if !k.state.removable && !s.idlePhase then s1.reportDislodged x else s1)

/-- The record with its lever at a debounced level (R24). -/
def Pack.withLever (k : Pack) (level : Bool) : Pack := { k with lever := level, leverPin := { raw := level, timer := none } }

/-- LEVER_PRESS (R37): the debounced lever becomes pressed and starts a release, judged in PPC's regime (R38). -/
def execLeverPress (x : Slot) (s : State) : Host.Outcome State Fault Refusal :=
  .next (if (s.ppc.pack x).lever then s
    else
      let r := (s.ppc.setPack x ((s.ppc.pack x).withLever true)).release x s.idlePhase s.ppc.regime
      s.ppcEnd r.ppc r.pulses)

/-- LEVER_RELEASE (R24): only the record's lever field changes. -/
def execLeverRelease (x : Slot) (s : State) : Host.Outcome State Fault Refusal :=
  .next (if (s.ppc.pack x).lever then s.editPack x fun k => k.withLever false else s)

/-- DCIN_OK_CHANGE (R34). -/
def execDcinOkChange (level : Bool) (s : State) : Host.Outcome State Fault Refusal :=
  .next (if s.ppc.dcinOk = level then s else s.ppcSettle (s.ppc.dcChange level) [.dcChange])

/-- BR_PRES_CHANGE (R49). -/
def execBrPresChange (level : Bool) (s : State) : Host.Outcome State Fault Refusal :=
  .next (if s.ppc.bridge.fitted = level then s else s.ppcSettle (s.ppc.bridgeFit level) [])

end Sys2Proof.Machine
end

