-- ==== Sys2Proof/Machine/TimerEvents.lean ====
section
/-! DEFINITION. The expiries. A timer that is stopped does not expire (section 2.1): the command then changes nothing (log
entries 2 and 4). -/

namespace Sys2Proof.Machine

/-- QUAL_TIMEOUT_EXPIRY (R29). -/
def execQualTimeoutExpiry (x : Slot) (s : State) : Host.Outcome State Fault Refusal :=
  let k := s.ppc.pack x
  .next (if k.state = .qualifying && k.qualTimer.isSome then
      s.ppcEnd (s.ppc.enterFault x .qualifyTimeout s.idlePhase) [.packFault x]
    else s)

/-- GAUGE_STALE_EXPIRY (R32). -/
def execGaugeStaleExpiry (x : Slot) (s : State) : Host.Outcome State Fault Refusal :=
  let k := s.ppc.pack x
  .next (if k.staleTimer.isNone then s
    else if k.state = .online then s.ppcSettle (s.ppc.gaugeStale x) []
    else s.ppcQuiet (s.ppc.gaugeStale x) [])

/-- RELEASE_CONFIRM_EXPIRY (R41). -/
def execReleaseConfirmExpiry (x : Slot) (s : State) : Host.Outcome State Fault Refusal :=
  let k := s.ppc.pack x
  .next (if k.state = .releasing && k.confirmTimer.isSome then
      s.ppcEnd (s.ppc.confirm x s.idlePhase).1 (s.ppc.confirm x s.idlePhase).2
    else s)

/-- UNLOCK_HOLD_EXPIRY (R43). -/
def execUnlockHoldExpiry (x : Slot) (s : State) : Host.Outcome State Fault Refusal :=
  let k := s.ppc.pack x
  .next (if k.state = .unlocked && k.holdTimer.isSome then s.ppcEnd (s.ppc.relock x) [] else s)

/-- TRANSFER_SETTLE_EXPIRY (R36). -/
def execTransferSettleExpiry (s : State) : Host.Outcome State Fault Refusal :=
  .next (if s.ppc.settleTimer.isSome then s.ppcEnd s.ppc.settleExpiry [] else s)

/-- SWAP_WINDOW_EXPIRY (R59): a RUNNING window has counted down. -/
def execSwapWindowExpiry (s : State) : Host.Outcome State Fault Refusal :=
  .next (match s.ppc.bridge.window with
    | .running _ => s.ppcSettle s.ppc.exhaust [.bridgeExhausted]
    | _ => s)

/-- LIGHT_STALE_EXPIRY (R71). -/
def execLightStaleExpiry (r : LightRole) (s : State) : Host.Outcome State Fault Refusal :=
  .next (if (s.lmc.role r).timer.isSome then s.lmcEnd (s.lmc.loseRole r) [] else s)

/-- STEP_EXPIRY (R99): O moves toward T and the step timer restarts. -/
def execStepExpiry (s : State) : Host.Outcome State Fault Refusal :=
  .next (s.setLmc { s.lmc with out := s.lmc.stepOut, stepTimer := s.lmc.set.stepMs })

/-- ACCEL_STALE_EXPIRY (R118, R119). -/
def execAccelStaleExpiry (s : State) : Host.Outcome State Fault Refusal :=
  .next (if s.mtm.staleTimer.isSome then s.mtmEnd s.mtm.goBlind else s)

/-- PROTECT_HOLD_EXPIRY (R117). -/
def execProtectHoldExpiry (s : State) : Host.Outcome State Fault Refusal :=
  .next (if s.mtm.phase = .hold && s.mtm.holdTimer.isSome then s.mtmEnd { mtm := s.mtm.endHold, pulses := [] } else s)

/-- The hold-off ends: the timer stops and eligibility is judged (R146). -/
def State.endHoldOff (s : State) : State := (s.setNtu { s.ntu with holdOff := none }).judge

/-- HOLD_OFF_EXPIRY (R146). -/
def execHoldOffExpiry (s : State) : Host.Outcome State Fault Refusal :=
  .next (if s.ntu.holdOff.isSome then s.endHoldOff else s)

end Sys2Proof.Machine
end

