-- ==== Sys2Proof/Machine/LinkRequests.lean ====
section
/-! DEFINITION. The requests owned by LKI (section 9.4) and the answer to an unknown code (R153). -/

namespace Sys2Proof.Machine

/-- The IDENTIFY payload: part code, family code, revision, capacities (R155). -/
def identity : List Byte :=
  b8 0x46 ++ b8 0x4D ++ b8 1 ++ b8 Config.routeEntries ++ b8 4 ++ b8 Config.requestPlaces ++ b8 Config.replyPlaces
    ++ b8 Config.busyPlaces ++ b8 Config.samplePlaces ++ b8 Config.curvePoints ++ b8 Config.dropRecords
    ++ b8 Config.eventCodes

/-- IDENTIFY (R155). -/
def execIdentify (s : State) : Host.Outcome State Fault Refusal :=
  .next (s.serve .identify fun _ s => Answer.ok s identity)

/-- SILENCE_TIMEOUT is stored and the timer restarts, or stops at 0; it does not run in UNATTENDED (R156, R168, log
entry 9). -/
def Lki.setSilence (l : Lki) (v : Nat) : Lki :=
  { l with silenceTimeout := v
           silenceTimer := if v = 0 || l.regime == .unattended then none else some (v * 100) }

/-- LINK_SET (R156). -/
def execLinkSet (s : State) : Host.Outcome State Fault Refusal :=
  .next (s.serve .linkSet fun a s => Answer.ok (s.setLki (s.lki.setSilence (u8 a 0))) (b8 (u8 a 0)))

/-- The LINK_STATUS payload (R157). -/
def Lki.statusBytes (l : Lki) : List Byte :=
  b8 l.regime.code ++ b8 l.silenceTimeout ++ optField 2 le16 l.silenceTimer ++ le16 l.linkErrors
    ++ le16 l.ports.fp0.errors ++ le16 l.ports.fp1.errors ++ le16 l.ports.fp2.errors ++ le16 l.ports.fp3.errors
    ++ b8 l.samples.length ++ b8 l.replyCount ++ b8 l.busyCount
    ++ flag l.ports.fp0.buffer.isSome ++ flag l.ports.fp1.buffer.isSome ++ flag l.ports.fp2.buffer.isSome
    ++ flag l.ports.fp3.buffer.isSome

/-- LINK_STATUS (R157). -/
def execLinkStatus (s : State) : Host.Outcome State Fault Refusal :=
  .next (s.serve .linkStatus fun _ s => Answer.ok s s.lki.statusBytes)

/-- UNKNOWN_REQUEST (R153): a taken request whose code names no request is answered UNKNOWN. -/
def execUnknownRequest (s : State) : Host.Outcome State Fault Refusal :=
  .next (match s.rqh.inProgress with
    | some r => if (RequestCode.ofByte r.code).isNone then s.answer r.tag .unknown [] else s
    | none => s)

end Sys2Proof.Machine
end

