-- ==== Sys2Proof/Machine/RouteRequests.lean ====
section
/-! DEFINITION. The requests owned by SRT (Table 9-4, sections 1.6 to 1.8). -/

namespace Sys2Proof.Machine

/-- The factor agrees with the action (R10). -/
def Action.factorOk (a : Action) (factor : Nat) : Bool :=
  match a with
  | .decimate => 2 ≤ factor && factor ≤ 64
  | .forward | .suppress => factor == 0

/-- The entry that ROUTE_WRITE arguments spell, with counters and phase 0; none where a field is refused (R10, Table
10-7). -/
def RouteEntry.ofArgs (a : List Byte) : Option RouteEntry :=
  match Action.ofCode (u8 a 4), TapRole.ofCode (u8 a 6), portOfCode (u8 a 7) with
  | some act, some tap, some port =>
    if act.factorOk (u8 a 5) then
      some { valid := (u8 a 1).testBit 0, pinned := (u8 a 1).testBit 1, guarded := (u8 a 1).testBit 2
             matchId := a.getD 2 0#8, mask := a.getD 3 0#8, action := act, factor := u8 a 5, tap := tap, port := port
             passed := 0, withheld := 0, phase := 0 }
    else none
  | _, _, _ => none

/-- A route entry on the link (Table 10-7, offsets 0 to 13). -/
def RouteEntry.bytes (e : RouteEntry) (index : Nat) (override dflt ended : Bool) : List Byte :=
  b8 index ++ b8 (e.valid.toNat + 2 * e.pinned.toNat + 4 * e.guarded.toNat) ++ [e.matchId, e.mask] ++ b8 e.action.code
    ++ b8 e.factor ++ b8 e.tap.code ++ b8 (portCode e.port) ++ le16 e.passed ++ le16 e.withheld ++ b8 e.phase
    ++ b8 (override.toNat + 2 * dflt.toNat + 4 * ended.toNat)

/-- The override is dropped and ROUTE_COLLISION raised where `hit` says that the overridden entry was touched (R21). -/
def State.collide (s : State) (hit : Bool) : State :=
  if hit then (s.setSrt { s.srt with overrideEntry := none }).raise [.routeCollision] [] else s

/-- The owner's event of ROUTE_WRITE (R8, R10, R21). -/
def routeWriteOwner (a : List Byte) (s : State) : Answer :=
  let i := u8 a 0
  if 23 < i then Answer.refuse s .badIndex
  else
    match RouteEntry.ofArgs a with
    | none => Answer.refuse s .badField
    | some e =>
      let ended := e.valid && s.srt.defaultRoute
      let s1 := s.setSrt { s.srt with table := s.srt.table.set i e, defaultRoute := s.srt.defaultRoute && !e.valid }
      let s2 := s1.collide (s.srt.overrideEntry == some i)
      Answer.ok s2 (e.bytes i (s2.srt.overrideEntry == some i) s2.srt.defaultRoute ended)

/-- ROUTE_WRITE (R10). -/
def execRouteWrite (s : State) : Host.Outcome State Fault Refusal := .next (s.serve .routeWrite routeWriteOwner)

/-- The owner's event of ROUTE_READ (R11). -/
def routeReadOwner (a : List Byte) (s : State) : Answer :=
  let i := u8 a 0
  match s.srt.table[i]? with
  | none => Answer.refuse s .badIndex
  | some e => Answer.ok s (e.bytes i (s.srt.overrideEntry == some i) s.srt.defaultRoute false)

/-- ROUTE_READ (R11). -/
def execRouteRead (s : State) : Host.Outcome State Fault Refusal := .next (s.serve .routeRead routeReadOwner)

/-- An unpinned entry is made invalid with its counters and phase 0 (R12). -/
def RouteEntry.flush (e : RouteEntry) : RouteEntry :=
  if e.pinned then e else { e with valid := false, passed := 0, withheld := 0, phase := 0 }

/-- The owner's event of ROUTE_FLUSH (R12, R21). -/
def routeFlushOwner (_ : List Byte) (s : State) : Answer :=
  let n := s.srt.table.countP fun e => e.valid && !e.pinned
  let hit := match s.srt.overrideEntry with
    | some i => (s.srt.table[i]?).any fun e => !e.pinned
    | none => false
  Answer.ok ((s.setSrt { s.srt with table := s.srt.table.map RouteEntry.flush }).collide hit) (b8 n)

/-- ROUTE_FLUSH (R12). -/
def execRouteFlush (s : State) : Host.Outcome State Fault Refusal := .next (s.serve .routeFlush routeFlushOwner)

/-- The owner's event of COUNT_SNAPSHOT: the copy and the clear are one step (R14). -/
def countSnapshotOwner (a : List Byte) (s : State) : Answer :=
  let s1 := s.setSrt { s.srt with holding := s.liveCounters }
  Answer.ok (if u8 a 0 = 1 then (s1.setSrt s1.srt.clearCounters).setLki s1.lki.clearCounters else s1) []

/-- COUNT_SNAPSHOT (R14). -/
def execCountSnapshot (s : State) : Host.Outcome State Fault Refusal := .next (s.serve .countSnapshot countSnapshotOwner)

/-- The owner's event of COUNT_READ (R15). -/
def countReadOwner (a : List Byte) (s : State) : Answer :=
  let first := u8 a 0
  let count := u8 a 1
  if 53 < first || 54 < first + count then Answer.refuse s .badIndex
  else if count = 0 || 16 < count then Answer.refuse s .badField
  else Answer.ok s (((s.srt.holding.drop first).take count).flatMap le16)

/-- COUNT_READ (R15). -/
def execCountRead (s : State) : Host.Outcome State Fault Refusal := .next (s.serve .countRead countReadOwner)

/-- The offer to a port's outbound buffer; the port begins sending at once (R18, R170, log entry 17). -/
def State.offerPort (s : State) (p : PortId) (dest : Byte) (payload : List Byte) : Answer :=
  if (s.lki.ports.get p).buffer.isSome then Answer.refuse s .busy
  else Answer.ok (s.editPort p fun x => { x with buffer := some { dest := dest, payload := payload, begun := true } }) []

/-- The owner's event of PASS (R16 to R18). -/
def passOwner (a : List Byte) (s : State) : Answer :=
  let dest := a.getD 0 0#8
  let payload := a.drop 1
  if payload.length = 0 || 40 < payload.length then Answer.refuse s .badLength
  else
    match s.srt.table.find? fun e => e.takes dest with
    | none => Answer.refuse s .noRoute
    | some e =>
      if e.guarded && s.protectiveCondition e.tap then Answer.refuse s .isProtected else s.offerPort e.port dest payload

/-- PASS (R16). -/
def execPass (s : State) : Host.Outcome State Fault Refusal := .next (s.serve .pass passOwner)

end Sys2Proof.Machine
end

