-- ==== Sys2Proof/Machine/PowerRequests.lean ====
section
/-! DEFINITION. The requests owned by PPC (Table 9-5; R23, R37, R45, R61, R63, R64). -/

namespace Sys2Proof.Machine

/-- Every setting within its range and the combinations right (R23, Table 2-2). -/
def PackProfile.ok (f : PackProfile) : Bool :=
  decide (f.qvMin ≤ 20000) && decide (f.qvMax ≤ 20000) && decide (1 ≤ f.qualNeeded) && decide (f.qualNeeded ≤ 15)
    && decide (100 ≤ f.qualTimeout) && decide (f.qualTimeout ≤ 60000)
    && decide (-400 ≤ f.tLow) && decide (f.tLow ≤ 1000) && decide (-400 ≤ f.tCut) && decide (f.tCut ≤ 1000)
    && decide (f.vCut ≤ 20000)
    && decide (-400 ≤ f.t1) && decide (f.t1 ≤ 1000) && decide (-400 ≤ f.t2) && decide (f.t2 ≤ 1000)
    && decide (-400 ≤ f.t3) && decide (f.t3 ≤ 1000)
    && decide (f.imax0 ≤ 20000) && decide (f.imax1 ≤ 20000) && decide (f.imax2 ≤ 20000) && decide (f.imax3 ≤ 20000)
    && decide (f.pmaxPack ≤ 100000) && decide (f.staleAllow ≤ 100000)
    && decide (100 ≤ f.gaugeStale) && decide (f.gaugeStale ≤ 10000)
    && decide (f.rotateMwh ≤ 200000) && decide (f.rotateGap ≤ 200000) && decide (f.releaseMa ≤ 20000)
    && decide (10 ≤ f.releaseConfirm) && decide (f.releaseConfirm ≤ 5000)
    && decide (1000 ≤ f.unlockHold) && decide (f.unlockHold ≤ 60000)
    && decide (f.qvMin ≤ f.qvMax) && decide (f.tLow < f.tCut) && decide (f.t1 ≤ f.t2) && decide (f.t2 ≤ f.t3)

/-- The profile is replaced and the allowances of the records that hold a sample are recomputed (R23). -/
def Ppc.withProfile (p : Ppc) (f : PackProfile) : Ppc :=
  { p with profile := f, packA := p.packA.reallow f, packB := p.packB.reallow f }

/-- The owner's event of PACK_PROFILE_WRITE (R23). -/
def packProfileOwner (a : List Byte) (s : State) : Answer :=
  let f := PackProfile.ofArgs a
  if f.ok then Answer.ok (s.ppcSettle (s.ppc.withProfile f) []) f.bytes else Answer.refuse s .badField

/-- PACK_PROFILE_WRITE (R23). -/
def execPackProfileWrite (s : State) : Host.Outcome State Fault Refusal :=
  .next (s.serve .packProfileWrite packProfileOwner)

/-- A gauge sample in a reply (Table 2-1). -/
def GaugeSample.bytes (g : GaugeSample) : List Byte :=
  le16 g.voltage ++ sle16 g.current ++ sle16 g.temperature ++ le32 g.energy ++ flag g.fault ++ flag g.charging

/-- The PACK_STATUS payload: Table 2-1 in the table's order, then the record's four timers (R45), which neither R45 nor the table
lists: they stand in the order in which section 2.1 names them. Two-valued fields of the table count from 0 in the order the table
lists their values (R172, log entry 14 for both). -/
def Pack.statusBytes (k : Pack) : List Byte :=
  b8 k.state.code ++ flag (!k.presence) ++ flag (!k.lever) ++ flag (!k.lock) ++ flag k.switch
    ++ optField 12 GaugeSample.bytes k.sample ++ optField 2 le16 k.age ++ flag k.stale ++ b8 k.qual ++ le32 k.allowance
    ++ optField 1 (fun c => b8 c.code) k.faultCause ++ optField 1 (fun c => b8 c.code) k.lastRefusal
    ++ optField 1 (fun c => b8 c.code) k.lossCause ++ flag k.lockPending
    ++ optField 2 le16 k.qualTimer ++ optField 2 le16 k.confirmTimer ++ optField 2 le16 k.holdTimer
    ++ optField 2 le16 k.staleTimer

/-- PACK_STATUS (R45). -/
def execPackStatus (s : State) : Host.Outcome State Fault Refusal :=
  .next (s.serve .packStatus fun a s =>
    match slotOfCode (u8 a 0) with
    | none => Answer.refuse s .badIndex
    | some x => Answer.ok s (s.ppc.pack x).statusBytes)

/-- The owner's event of PACK_RELEASE (R37, R39). A request acts in ATTENDED, whatever the regime has become since its frame
(R38, R158). -/
def packReleaseOwner (a : List Byte) (s : State) : Answer :=
  match slotOfCode (u8 a 0) with
  | none => Answer.refuse s .badIndex
  | some x =>
    let r := s.ppc.release x s.idlePhase .attended
    match r.result with
    | .ignored => Answer.reason s .notReleasable
    | .refused why => Answer.reason (s.ppcEnd r.ppc r.pulses) why
    | .done => Answer.ok (s.ppcEnd r.ppc r.pulses) []

/-- PACK_RELEASE (R37). -/
def execPackRelease (s : State) : Host.Outcome State Fault Refusal := .next (s.serve .packRelease packReleaseOwner)

/-- P_SYS and DC_LIMIT clamped (R61). -/
def PowerSettings.clamped (p : PowerSettings) : PowerSettings :=
  { p with pSys := clampNat p.pSys 0 60000, dcLimit := clampNat p.dcLimit 0 100000 }

/-- The owner's event of POWER_SET (R61). -/
def powerSetOwner (a : List Byte) (s : State) : Answer :=
  let p := PowerSettings.ofArgs a
  if 20000 < p.margin then Answer.refuse s .badField
  else Answer.ok (s.ppcSettle { s.ppc with power := p.clamped } []) p.clamped.bytes

/-- POWER_SET (R61). -/
def execPowerSet (s : State) : Host.Outcome State Fault Refusal := .next (s.serve .powerSet powerSetOwner)

/-- The owner's event of BRIDGE_SET (R63); the two-byte settings cannot leave their range. -/
def bridgeSetOwner (a : List Byte) (s : State) : Answer :=
  let b := BridgeSettings.ofArgs a
  if 100000 < b.pmax then Answer.refuse s .badField
  else Answer.ok (s.ppcSettle { s.ppc with bridgeSet := b, bridge := s.ppc.bridge.relow b } []) b.bytes

/-- BRIDGE_SET (R63). -/
def execBridgeSet (s : State) : Host.Outcome State Fault Refusal := .next (s.serve .bridgeSet bridgeSetOwner)

/-- A bridge sample in a reply (Table 3-1). -/
def BridgeSample.bytes (b : BridgeSample) : List Byte := le16 b.voltage ++ le16 b.charge ++ flag b.fault

/-- The window remaining, present while RUNNING (Table 3-1). -/
def Window.remaining : Window → Option Nat
  | .running ms => some ms
  | _ => Option.none

/-- The POWER_STATUS payload, in the order R64 lists. -/
def Ppc.statusBytes (p : Ppc) : List Byte :=
  flag p.swDc ++ flag p.packA.switch ++ flag p.packB.switch ++ flag p.bridge.switch ++ flag p.dcinOk
    ++ flag p.bridge.fitted ++ flag p.brace ++ flag p.bridge.alone ++ le32 p.budget.pAv ++ le16 p.budget.aBl
    ++ le16 p.budget.cPower ++ b8 p.bridge.window.code ++ optField 4 le32 p.bridge.window.remaining
    ++ flag p.bridge.exhausted ++ optField 5 BridgeSample.bytes p.bridge.last ++ flag p.bridge.low
    ++ p.power.bytes ++ p.bridgeSet.bytes

/-- POWER_STATUS (R64). -/
def execPowerStatus (s : State) : Host.Outcome State Fault Refusal :=
  .next (s.serve .powerStatus fun _ s => Answer.ok s s.ppc.statusBytes)

end Sys2Proof.Machine
end

