-- ==== Sys2Proof/Machine/LightRequests.lean ====
section
/-! DEFINITION. The requests owned by LMC (Table 9-6; R68, R86 to R88, R93 to R95, R102, R103). -/

namespace Sys2Proof.Machine

/-- The refused fields of LIGHT_SET lie within their ranges (R68, R102). -/
def LightSettings.ok (p : LightSettings) : Bool :=
  decide (100 ≤ p.lightStale) && decide (p.lightStale ≤ 10000) && decide (4 ≤ p.stepMs) && decide (p.stepMs ≤ 1000)
    && decide (1 ≤ p.ru) && decide (p.ru ≤ 4095) && decide (1 ≤ p.rd) && decide (p.rd ≤ 4095)

/-- No gain is 0 (R68). -/
def Gains.ok (g : Gains) : Bool := g.k0 != 0 && g.k1 != 0 && g.k2 != 0 && g.k3 != 0

/-- The clamped fields of LIGHT_SET (R68, R102). -/
def LightSettings.clamped (p : LightSettings) : LightSettings :=
  { p with wTop := min p.wTop 16, sUp := min p.sUp 7, sDown := min p.sDown 7
           pBlMax := clampNat p.pBlMax 1000 20000, cUnatt := min p.cUnatt 4095 }

/-- Every setting of LIGHT_SET is replaced in one event (R68, R102). -/
def Lmc.withSettings (m : Lmc) (front top : Gains) (set : LightSettings) : Lmc :=
  { m with set := set, front := { m.front with gains := front }, top := { m.top with gains := top } }

/-- The owner's event of LIGHT_SET (R68, R102); a changed P_BL_MAX is delivered to PPC (R101). -/
def lightSetOwner (a : List Byte) (s : State) : Answer :=
  let front := Gains.ofArgs a 0
  let top := Gains.ofArgs a 8
  let set := LightSettings.ofArgs a
  if front.ok && top.ok && set.ok then
    Answer.ok ((s.setLmc (s.lmc.withSettings front top set.clamped)).deliverPBlMax set.clamped.pBlMax)
      (front.bytes ++ top.bytes ++ set.clamped.bytes)
  else Answer.refuse s .badField

/-- LIGHT_SET (R68). -/
def execLightSet (s : State) : Host.Outcome State Fault Refusal := .next (s.serve .lightSet lightSetOwner)

/-- The curve after a header write (R86). -/
def Curve.withHeader (c : Curve) (n floor failLevel : Nat) : Curve :=
  { c with n := n, floor := floor, failLevel := failLevel, latch := none, validationPending := true }

/-- The owner's event of CURVE_WRITE_HEADER (R86). -/
def curveHeaderOwner (a : List Byte) (s : State) : Answer :=
  let n := u8 a 0
  let fl := clampNat (u16 a 1) 0 4095
  let fail := clampNat (u16 a 3) 0 4095
  if n < 2 || 16 < n then Answer.refuse s .badField
  else
    Answer.ok (s.lmcEnd { s.lmc with curve := s.lmc.curve.withHeader n fl fail }.recompute []) (b8 n ++ le16 fl ++ le16 fail)

/-- CURVE_WRITE_HEADER (R86). -/
def execCurveWriteHeader (s : State) : Host.Outcome State Fault Refusal :=
  .next (s.serve .curveWriteHeader curveHeaderOwner)

/-- The write of point j touches the latched segment (R87). -/
def Curve.touchesLatch (c : Curve) (j : Nat) : Bool := c.latch.any fun i => j == i || j == i + 1

/-- LMC after a point write: the first two cases of R87 recompute the target, the others only store. -/
def Lmc.writePoint (m : Lmc) (j : Nat) (pt : CurvePoint) : Lmc :=
  let c := { m.curve with points := m.curve.points.set j pt, validationPending := true }
  if m.curve.touchesLatch j then { m with curve := { c with latch := none } }.recompute
  else if m.curve.latch.isNone && decide (j < m.curve.n) then { m with curve := c }.recompute
  else { m with curve := c }

/-- The owner's event of CURVE_WRITE_POINT (R87). -/
def curvePointOwner (a : List Byte) (s : State) : Answer :=
  let j := u8 a 0
  let pt : CurvePoint := { x := min (u16 a 1) 4607, y := min (u16 a 3) 4095 }
  if 15 < j then Answer.refuse s .badIndex
  else Answer.ok (s.lmcEnd (s.lmc.writePoint j pt) []) (b8 j ++ le16 pt.x ++ le16 pt.y)

/-- CURVE_WRITE_POINT (R87). -/
def execCurveWritePoint (s : State) : Host.Outcome State Fault Refusal :=
  .next (s.serve .curveWritePoint curvePointOwner)

/-- The CURVE_READ payload (R88). -/
def Curve.bytes (c : Curve) : List Byte :=
  b8 c.n ++ le16 c.floor ++ le16 c.failLevel ++ c.points.flatMap (fun p => le16 p.x ++ le16 p.y)
    ++ optField 1 b8 c.latch ++ flag c.validationPending ++ flag (!c.consistent)

/-- CURVE_READ (R88). -/
def execCurveRead (s : State) : Host.Outcome State Fault Refusal :=
  .next (s.serve .curveRead fun _ s => Answer.ok s s.lmc.curve.bytes)

/-- The owner's event of BL_BIAS (R93). -/
def blBiasOwner (a : List Byte) (s : State) : Answer :=
  let u := clampInt (s16 a 0) (-1024) 1023
  Answer.ok (s.lmcEnd { s.lmc with bias := u }.recompute []) (sle16 u)

/-- BL_BIAS (R93). -/
def execBlBias (s : State) : Host.Outcome State Fault Refusal := .next (s.serve .blBias blBiasOwner)

/-- The owner's event of BL_FORCE (R94). -/
def blForceOwner (a : List Byte) (s : State) : Answer :=
  let v := clampNat (u16 a 0) 0 4095
  Answer.ok (s.lmcEnd { s.lmc with forced := some v, mode := .forced }.recompute []) (le16 v)

/-- BL_FORCE (R94). -/
def execBlForce (s : State) : Host.Outcome State Fault Refusal := .next (s.serve .blForce blForceOwner)

/-- The owner's event of BL_RELEASE (R95). -/
def blReleaseOwner (_ : List Byte) (s : State) : Answer :=
  if s.lmc.mode = .forced then
    let mode := if s.lmc.valid then Mode.curve else Mode.fail
    Answer.ok (s.lmcEnd { s.lmc with forced := none, mode := mode }.recompute []) (b8 mode.code)
  else Answer.reason s .notForced

/-- BL_RELEASE (R95). -/
def execBlRelease (s : State) : Host.Outcome State Fault Refusal := .next (s.serve .blRelease blReleaseOwner)

/-- A light role in the BL_STATUS payload (R82). -/
def LightRecord.statusBytes (r : LightRecord) : List Byte :=
  flag (!r.live) ++ optField 4 le32 r.lux ++ optField 2 le16 r.timer

/-- The BL_STATUS payload: the measurement of R82, FRONT before TOP, then the items of R103 (log entry 14). -/
def Lmc.statusBytes (m : Lmc) : List Byte :=
  m.front.statusBytes ++ m.top.statusBytes ++ optField 4 le32 m.e ++ optField 2 le16 m.lg ++ optField 2 le16 m.f
    ++ flag m.valid ++ flag m.freeze ++ b8 m.mode.code ++ optField 2 le16 m.forced ++ sle16 m.bias
    ++ le16 m.t0 ++ le16 m.cPower ++ le16 m.target ++ le16 m.out ++ b8 m.regime.code ++ le16 m.set.cUnatt
    ++ le16 m.stepTimer ++ optField 1 b8 m.curve.latch ++ flag m.curve.validationPending ++ flag (!m.curve.consistent)

/-- BL_STATUS (R103). -/
def execBlStatus (s : State) : Host.Outcome State Fault Refusal :=
  .next (s.serve .blStatus fun _ s => Answer.ok s s.lmc.statusBytes)

end Sys2Proof.Machine
end

