-- ==== Sys2Proof/Machine/MotionRequests.lean ====
section
/-! DEFINITION. The requests owned by MTM (Table 9-7; R109, R120, R132, R133). -/

namespace Sys2Proof.Machine

/-- Every motion setting within its range and the three agreements (R109, Table 6-3). -/
def MotionSettings.ok (m : MotionSettings) : Bool :=
  decide (50 ≤ m.ffThresh) && decide (m.ffThresh ≤ 2000) && decide (1 ≤ m.ffCount) && decide (m.ffCount ≤ 255)
    && decide (2 ≤ m.ffMax) && decide (m.ffMax ≤ 65535) && decide (1000 ≤ m.impactThresh)
    && decide (m.impactThresh ≤ 28000) && decide (m.quietBand ≤ 1000) && decide (1 ≤ m.quietCount)
    && decide (m.quietCount ≤ 65535) && decide (1 ≤ m.settleMax) && decide (m.settleMax ≤ 65535)
    && decide (50 ≤ m.protectHold) && decide (m.protectHold ≤ 60000) && decide (10 ≤ m.accelStale)
    && decide (m.accelStale ≤ 1000)
    && decide (m.ffThresh < m.impactThresh) && decide (m.ffCount < m.ffMax) && decide (m.quietCount ≤ m.settleMax)

/-- The owner's event of MOTION_SET (R109). -/
def motionSetOwner (a : List Byte) (s : State) : Answer :=
  let m := MotionSettings.ofArgs a
  if m.ok then Answer.ok (s.setMtm { s.mtm with set := m }) m.bytes else Answer.refuse s .badField

/-- MOTION_SET (R109). -/
def execMotionSet (s : State) : Host.Outcome State Fault Refusal := .next (s.serve .motionSet motionSetOwner)

/-- The MOTION_STATUS payload (R120); the history takes a length byte and 8 places (R172). -/
def Mtm.statusBytes (m : Mtm) : List Byte :=
  b8 m.phase.code ++ b8 m.lowRun ++ b8 m.midRun ++ le16 m.quiet ++ le16 m.settled ++ optField 1 b8 m.accelIndex
    ++ optField 2 le16 m.lastMag ++ b8 m.history.length ++ m.history.flatMap le16
    ++ List.replicate (2 * (Config.historyPlaces - m.history.length)) 0#8
    ++ flag (!m.live) ++ optField 2 le16 m.staleTimer ++ optField 2 le16 m.holdTimer
    ++ optField 2 le16 (m.openRecord?.map (·.seq)) ++ m.set.bytes

/-- MOTION_STATUS (R120). -/
def execMotionStatus (s : State) : Host.Outcome State Fault Refusal :=
  .next (s.serve .motionStatus fun _ s => Answer.ok s s.mtm.statusBytes)

/-- The ring summary: the number of records held and the next sequence number (Table 10-8). -/
def Mtm.ringSummary (m : Mtm) : List Byte := b8 m.ring.length ++ le16 m.nextSeq

/-- A drop record on the link (Table 10-8); absent peak fields and lead count are sent as 0. -/
def DropRecord.bytes (r : DropRecord) : List Byte :=
  le16 r.seq ++ b8 (r.kind.code + 4 * r.outcome.code + 16 * r.source.code + 128 * r.isOpen.toNat)
    ++ b8 (r.bounces + 16 * r.lead.getD 0)
    ++ b8 (r.capture.length + 32 * r.peak.isSome.toNat + 64 * r.swapInProgress.toNat)
    ++ b8 (r.dislodgedA.toNat + 2 * r.dislodgedB.toNat + 4 * (r.peak.map fun q => q.axis.code).getD 0
        + 16 * (r.peak.any fun q => q.negative).toNat)
    ++ le16 r.fallLength ++ le16 ((r.peak.map fun q => q.magnitude).getD 0) ++ r.capture.flatMap le16

/-- The record held with a sequence number (R132, R133). -/
def Mtm.held (m : Mtm) (seq : Nat) : Option DropRecord := m.ring.find? fun r => r.seq == seq

/-- The owner's event of DROP_READ (R132): the oldest record held, or the one named. -/
def dropReadOwner (a : List Byte) (s : State) : Answer :=
  match if u8 a 0 = 1 then s.mtm.ring.head? else s.mtm.held (u16 a 1) with
  | none => { state := s, status := .badIndex, payload := s.mtm.ringSummary }
  | some r => Answer.ok s (r.bytes ++ s.mtm.ringSummary)

/-- DROP_READ (R132). -/
def execDropRead (s : State) : Host.Outcome State Fault Refusal := .next (s.serve .dropRead dropReadOwner)

/-- The owner's event of DROP_RELEASE (R133). -/
def dropReleaseOwner (a : List Byte) (s : State) : Answer :=
  match s.mtm.held (u16 a 0) with
  | none => { state := s, status := .badIndex, payload := s.mtm.ringSummary }
  | some r =>
    if r.isOpen then Answer.reason s .recordOpen
    else
      let m := { s.mtm with ring := freeThrough s.mtm.ring (u16 a 0) }
      Answer.ok (s.setMtm m) (b8 (s.mtm.ring.length - m.ring.length) ++ m.ringSummary)

/-- DROP_RELEASE (R133). -/
def execDropRelease (s : State) : Host.Outcome State Fault Refusal := .next (s.serve .dropRelease dropReleaseOwner)

end Sys2Proof.Machine
end

