-- ==== Sys2Proof/Machine/NoticeRequests.lean ====
section
/-! DEFINITION. The requests owned by NTU (Table 9-8; R143 to R147). -/

namespace Sys2Proof.Machine

/-- The entry of a code is changed. -/
def Ntu.editEntry (n : Ntu) (k : Nat) (g : EventEntry → EventEntry) : Ntu := { n with table := n.table.modify k g }

/-- The owner's event of EVENT_CONFIG: the checks in the order of R143, then the enable and the level stored and
eligibility judged. -/
def eventConfigOwner (a : List Byte) (s : State) : Answer :=
  let k := u8 a 0
  let en := u8 a 1
  let lv := u8 a 2
  if 31 < k then Answer.refuse s .badIndex
  else if 1 < en then Answer.refuse s .badField
  else if (hardLevel k).any (· != lv) then Answer.reason s .hardEvent
  else if (hardLevel k).isNone && decide (7 < lv) then Answer.refuse s .badField
  else
    Answer.ok (s.setNtu (s.ntu.editEntry k fun e => { e with enable := en == 1, level := lv })).judge
      (b8 k ++ b8 en ++ b8 lv)

/-- EVENT_CONFIG (R143). -/
def execEventConfig (s : State) : Host.Outcome State Fault Refusal := .next (s.serve .eventConfig eventConfigOwner)

/-- The owner's event of NOTICE_ENABLE: only a change from off to on judges eligibility (R144). -/
def noticeEnableOwner (a : List Byte) (s : State) : Answer :=
  let v := u8 a 0
  if 1 < v then Answer.refuse s .badField
  else
    let s1 := s.setNtu { s.ntu with globalEnable := v == 1 }
    Answer.ok (if v = 1 && !s.ntu.globalEnable then s1.judge else s1) (b8 v)

/-- NOTICE_ENABLE (R144). -/
def execNoticeEnable (s : State) : Host.Outcome State Fault Refusal := .next (s.serve .noticeEnable noticeEnableOwner)

/-- The EVENT_READ_CLEAR payload (R147). -/
def Ntu.readBytes (n : Ntu) : List Byte :=
  flagSet (n.table.map (·.latched)) ++ flagSet (n.table.map (·.live)) ++ flagSet (n.table.map (·.notified))
    ++ flagSet (n.table.map (·.enable)) ++ flag n.globalEnable ++ optField 2 le16 n.holdOff

/-- Latched and notified become no in the entries of the mask (R147). -/
def Ntu.clear (n : Ntu) (mask : Nat) : Ntu :=
  { n with table := n.table.mapIdx fun k e => if mask.testBit k then { e with latched := false, notified := false } else e }

/-- EVENT_READ_CLEAR (R147): the reply is built first, then the masked entries are cleared. -/
def execEventReadClear (s : State) : Host.Outcome State Fault Refusal :=
  .next (s.serve .eventReadClear fun a s => Answer.ok (s.setNtu (s.ntu.clear (u32 a 0))) s.ntu.readBytes)

/-- The hold-off after HOLD_NOTICES (R145, the table). -/
def State.holdNotices (s : State) (d : Nat) : State :=
  match s.ntu.holdOff with
  | none => if d = 0 then s else s.setNtu { s.ntu with holdOff := some d }
  | some r => if d = 0 then s.endHoldOff else if r < d then s.setNtu { s.ntu with holdOff := some d } else s

/-- HOLD_NOTICES (R145). -/
def execHoldNotices (s : State) : Host.Outcome State Fault Refusal :=
  .next (s.serve .holdNotices fun a s =>
    Answer.ok (s.holdNotices (u16 a 0)) (optField 2 le16 (s.holdNotices (u16 a 0)).ntu.holdOff))

end Sys2Proof.Machine
end

