-- ==== Sys2Proof/Machine/Reset.lean ====
section
/-! DEFINITION. The two resets: POWER_ON_RESET (R46, R66, R163) and RESTART (section 9.6). -/

namespace Sys2Proof.Machine

/-- The codes of the condition events whose condition holds (R139). -/
def liveCodes (p : Ppc) (m : Lmc) (t : Mtm) : List Nat :=
  ((p.conditions ++ m.conditions ++ [(Event.motionBlind, !t.live)]).filter Prod.snd).map fun x => x.1.code

/-- PPC after the selection run of R46 step 7; the initial carrying alone is a starting value (R66). -/
def Ppc.powerOn (pins : Pins) : Ppc :=
  let p := (Ppc.initial pins).select
  { p with bridge := { p.bridge with
      alone := p.carriesAlone, window := if p.carriesAlone then .waiting else .none } }

/-- Power-on reset: every block at its power-on state, then the first settlement (R46, R66). The queue of commands is not
the part's and is kept. -/
def State.powerOn (pins : Pins) (pending : List Instr) : State :=
  let p := Ppc.powerOn pins
  let s : State :=
    { lki := .initial, srt := .factory, rqh := .initial, ppc := p, lmc := .initial, mtm := .initial
      ntu := Ntu.initial (liveCodes p .initial .initial), pending := pending }
  s.ppcSettle p []

/-- POWER_ON_RESET (R46). -/
def execPowerOnReset (pins : Pins) (s : State) : Host.Outcome State Fault Refusal := .next (State.powerOn pins s.pending)

/-- LKI in the RESTART event (R160): the sample queue and the notice slot are emptied, payloads whose sending has not begun
are discarded, SILENCE_TIMEOUT returns to 30, the silence timer restarts, the counters become 0. -/
def Lki.restarted (l : Lki) : Lki :=
  ({ l with
     samples := [], notice := none
     ports := l.ports.map fun p => { p with buffer := p.buffer.filter (·.begun) } }.setSilence factorySilence).clearCounters

/-- PPC in the RESTART event, before its settlement (R47, R65): the profile with its recomputation, the power and bridge
settings, and the factory P_BL_MAX that LMC delivers. -/
def Ppc.restarted (p : Ppc) : Ppc :=
  { p.withProfile .factory with power := .factory, bridgeSet := .factory, pBlMax := factoryPBlMax }

/-- NTU in the RESTART event (R149): the table cleared, the live flags from the conditions, RESTARTED latched. -/
def Ntu.restarted (live : List Nat) : Ntu :=
  { table := (List.range Config.eventCodes).map fun k =>
      { EventEntry.initial k (live.contains k) with latched := k == Event.restarted.code }
    globalEnable := false, holdOff := none }

/-- The RESTART event at every block (R159 to R162). NTU clears its table before it latches anything raised by the
settlement. -/
def State.restarted (s : State) : State :=
  let p := s.ppc.restarted
  let m := s.lmc.restarted
  let t := s.mtm.restarted
  { s with
    lki := s.lki.restarted, rqh := { s.rqh with queue := [] }, srt := .factory, lmc := m, mtm := t
    ntu := Ntu.restarted (liveCodes p m t) }.ppcSettle p []

/-- The event of a RESTART that RQH took: refused with MOTION unless its phase copy was IDLE as it took it (R124, R159); the
reply carries the number of requests discarded (R160). -/
def restartOwner (_ : List Byte) (s : State) : Answer :=
  if s.rqh.takenIn = .idle then Answer.ok s.restarted (b8 s.rqh.queue.length) else Answer.reason s .motion

/-- RESTART (R124, R159): the event of a RESTART in progress. -/
def execRestart (s : State) : Host.Outcome State Fault Refusal := .next (s.serve .restart restartOwner)

/-- A RESTART that was taken with the phase IDLE takes effect now, if it is still in progress: what follows begins on the state
that it leaves (R124). -/
def State.finishRestart (s : State) : State := if s.restartGranted then s.serve .restart restartOwner else s

end Sys2Proof.Machine
end

