-- ==== Sys2Proof/Machine/SampleEvents.lean ====
section
/-! DEFINITION. The frames that a field port receives (R169). -/

namespace Sys2Proof.Machine

/-- A field-port receiver completes the given frame: its checks decide, and it hunts again (R169, log entry 7). A good frame may
begin a drop, so a RESTART that was taken in IDLE takes effect before it (R124, log entry 29). -/
def State.receivePort (s : State) (p : PortId) (f : WireFrame) : State :=
  if portFrameGood f then
    (s.finishRestart.editPort p fun x => { x with rx := .hunting }).routeSample (sampleOf f.body)
  else s.portError p

/-- SAMPLE_FRAME_RECEIVED (R169). -/
def execSampleFrameReceived (p : PortId) (f : WireFrame) (s : State) : Host.Outcome State Fault Refusal :=
  .next (s.receivePort p f)

/-- BAD_SAMPLE_FRAME (R169). -/
def execBadSampleFrame (p : PortId) (f : WireFrame) (s : State) : Host.Outcome State Fault Refusal :=
  .next (s.receivePort p f)

end Sys2Proof.Machine
end

