-- ==== Sys2Proof/Machine/Dispatch.lean ====
section
/-! DEFINITION. The meaning of every command, one arm each. -/

namespace Sys2Proof.Machine

/-- The effect of a command on everything but the queue. -/
def exec (i : Instr) (s : State) : Host.Outcome State Fault Refusal :=
  match i with
  | .powerOnReset pins => Sys2Proof.Machine.execPowerOnReset pins s
  | .requestFrameReceived frame => Sys2Proof.Machine.execRequestFrameReceived frame s
  | .uplinkFrameDiscarded frame => Sys2Proof.Machine.execUplinkFrameDiscarded frame s
  | .uplinkByteGap => Sys2Proof.Machine.execUplinkByteGap s
  | .sampleFrameReceived port frame => Sys2Proof.Machine.execSampleFrameReceived port frame s
  | .badSampleFrame port frame => Sys2Proof.Machine.execBadSampleFrame port frame s
  | .portByteGap port => Sys2Proof.Machine.execPortByteGap port s
  | .transmitComplete => Sys2Proof.Machine.execTransmitComplete s
  | .passSendComplete port => Sys2Proof.Machine.execPassSendComplete port s
  | .rawInputChange pin level => Sys2Proof.Machine.execRawInputChange pin level s
  | .seating slot => Sys2Proof.Machine.execSeating slot s
  | .presenceLoss slot => Sys2Proof.Machine.execPresenceLoss slot s
  | .leverPress slot => Sys2Proof.Machine.execLeverPress slot s
  | .leverRelease slot => Sys2Proof.Machine.execLeverRelease slot s
  | .dcinOkChange level => Sys2Proof.Machine.execDcinOkChange level s
  | .brPresChange level => Sys2Proof.Machine.execBrPresChange level s
  | .qualTimeoutExpiry slot => Sys2Proof.Machine.execQualTimeoutExpiry slot s
  | .gaugeStaleExpiry slot => Sys2Proof.Machine.execGaugeStaleExpiry slot s
  | .releaseConfirmExpiry slot => Sys2Proof.Machine.execReleaseConfirmExpiry slot s
  | .unlockHoldExpiry slot => Sys2Proof.Machine.execUnlockHoldExpiry slot s
  | .transferSettleExpiry => Sys2Proof.Machine.execTransferSettleExpiry s
  | .swapWindowExpiry => Sys2Proof.Machine.execSwapWindowExpiry s
  | .lightStaleExpiry role => Sys2Proof.Machine.execLightStaleExpiry role s
  | .stepExpiry => Sys2Proof.Machine.execStepExpiry s
  | .accelStaleExpiry => Sys2Proof.Machine.execAccelStaleExpiry s
  | .protectHoldExpiry => Sys2Proof.Machine.execProtectHoldExpiry s
  | .holdOffExpiry => Sys2Proof.Machine.execHoldOffExpiry s
  | .silenceTimeoutExpiry => Sys2Proof.Machine.execSilenceTimeoutExpiry s
  | .identify => Sys2Proof.Machine.execIdentify s
  | .linkSet => Sys2Proof.Machine.execLinkSet s
  | .linkStatus => Sys2Proof.Machine.execLinkStatus s
  | .routeWrite => Sys2Proof.Machine.execRouteWrite s
  | .routeRead => Sys2Proof.Machine.execRouteRead s
  | .routeFlush => Sys2Proof.Machine.execRouteFlush s
  | .countSnapshot => Sys2Proof.Machine.execCountSnapshot s
  | .countRead => Sys2Proof.Machine.execCountRead s
  | .pass => Sys2Proof.Machine.execPass s
  | .packProfileWrite => Sys2Proof.Machine.execPackProfileWrite s
  | .packStatus => Sys2Proof.Machine.execPackStatus s
  | .packRelease => Sys2Proof.Machine.execPackRelease s
  | .powerSet => Sys2Proof.Machine.execPowerSet s
  | .bridgeSet => Sys2Proof.Machine.execBridgeSet s
  | .powerStatus => Sys2Proof.Machine.execPowerStatus s
  | .lightSet => Sys2Proof.Machine.execLightSet s
  | .curveWriteHeader => Sys2Proof.Machine.execCurveWriteHeader s
  | .curveWritePoint => Sys2Proof.Machine.execCurveWritePoint s
  | .curveRead => Sys2Proof.Machine.execCurveRead s
  | .blBias => Sys2Proof.Machine.execBlBias s
  | .blForce => Sys2Proof.Machine.execBlForce s
  | .blRelease => Sys2Proof.Machine.execBlRelease s
  | .blStatus => Sys2Proof.Machine.execBlStatus s
  | .motionSet => Sys2Proof.Machine.execMotionSet s
  | .motionStatus => Sys2Proof.Machine.execMotionStatus s
  | .dropRead => Sys2Proof.Machine.execDropRead s
  | .dropRelease => Sys2Proof.Machine.execDropRelease s
  | .eventConfig => Sys2Proof.Machine.execEventConfig s
  | .noticeEnable => Sys2Proof.Machine.execNoticeEnable s
  | .eventReadClear => Sys2Proof.Machine.execEventReadClear s
  | .holdNotices => Sys2Proof.Machine.execHoldNotices s
  | .restart => Sys2Proof.Machine.execRestart s
  | .unknownRequest => Sys2Proof.Machine.execUnknownRequest s
  | .uplinkFrameStart => Sys2Proof.Machine.execUplinkFrameStart s
  | .portFrameStart port => Sys2Proof.Machine.execPortFrameStart port s

end Sys2Proof.Machine
end

