-- ==== Sys2Proof/Machine/Step.lean ====
section
/-! DEFINITION. One step: the command at the front of the queue, or, with no command waiting, what the part does by
itself. -/

namespace Sys2Proof.Machine

/-- One step. On an empty queue the request in progress is carried out, a due timer expires, or one millisecond passes (log
entry 3). -/
def step (s : State) : Host.Outcome State Fault Refusal :=
  match s.pending with
  | c :: rest => exec c (s.setPending rest)
  | [] =>
    match s.ownEvent with
    | some i => exec i s
    | none => .next s.tick

/-- The state with the command that a table word spells at the front of the queue (log entry 20). -/
def State.withFetchWord (s : State) (nbits w : Nat) : State :=
  match decodeTableWord nbits w with
  | some c => s.setPending (c :: s.pending)
  | none => s

end Sys2Proof.Machine
end

