-- ==== Sys2Proof/Safety.lean ====
section
/-! DEFINITION. What the claims speak of: the order of the replies, the frames of the blocks, and the invariants of a safe
run. -/

namespace Sys2Proof.Machine

/-! ### The link -/

/-- The replies in the order in which they are sent: the one in transmission, then the stream (R151, R166). -/
def Lki.replyTrail (l : Lki) : List OutFrame :=
  (match l.sending with
    | some (.reply r) => [.reply r]
    | _ => []) ++ l.stream.map StreamItem.frame

/-- The requests admitted and not answered, in their order: the one in progress, then the queue (R152). -/
def Rqh.waiting (r : Rqh) : List Request := r.inProgress.toList ++ r.queue

/-- LKI is unchanged but for the notice slot; an idle transmitter may have taken a NOTICE (R141, R166). -/
def Lki.onlyNotice (l l' : Lki) : Prop :=
  l' = { l with notice := l'.notice, sending := l'.sending }
    ∧ (l'.sending = l.sending ∨ l.sending = none ∧ ∃ n, l'.sending = some (.notice n))

/-- LKI is unchanged but for the notice slot and the reply stream; an idle transmitter may have taken a frame, and a frame
in transmission stays (R154, R166). -/
def Lki.onlyNorth (l l' : Lki) : Prop :=
  l' = { l with notice := l'.notice, stream := l'.stream, sending := l'.sending }
    ∧ (l.sending.isSome = true → l'.sending = l.sending)

/-- RQH takes nothing from its queue: it is empty, the reply queue is full, or a RESTART stands at the head while a reply
waits (R152). -/
def State.headWaits (s : State) : Prop :=
  ∀ r rest, s.rqh.queue = r :: rest →
    Config.replyPlaces ≤ s.lki.replyCount ∨ (r.code = RequestCode.restart.byte ∧ s.lki.stream ≠ [])

/-- The request in progress was answered with this status and payload: its reply stands last in the reply stream, it is no
longer in progress, RQH holds the requests that stood behind it, and it has taken the first of them, examining its phase copy,
unless that one must wait (R124, R152, R154). -/
def Answered (s t : State) (tag : Byte) (st : Status) (payload : List Byte) : Prop :=
  t.lki.replyTrail = s.lki.replyTrail ++ [.reply { tag := tag, status := st, payload := payload }]
    ∧ t.rqh.waiting = s.rqh.queue ∧ t.rqh.phaseCopy = s.rqh.phaseCopy
    ∧ (t.rqh.inProgress = none → t.headWaits)
    ∧ (t.rqh.inProgress.isSome = true → t.rqh.takenIn = s.rqh.phaseCopy)

/-! ### The event table -/

/-- The event is latched. -/
def Ntu.isLatched (n : Ntu) (e : Event) : Bool := (n.table[e.code]?).any (·.latched)
/-- The event's live flag. -/
def Ntu.isLive (n : Ntu) (e : Event) : Bool := (n.table[e.code]?).any (·.live)

/-- An entry as the configuration stands may notify: it is hard, or it is soft with enable on, a level of 1 or more and the global
notice enable on, and of level 6 or 7 or outside a hold-off (R140). -/
def Ntu.mayNotify (n : Ntu) (k : Nat) (e : EventEntry) : Prop :=
  (hardLevel k).isSome = true
    ∨ e.enable = true ∧ 1 ≤ e.level ∧ n.globalEnable = true ∧ (6 ≤ e.level ∨ n.holdOff = none)

/-- NTU is unchanged but for the latched and live flags of the given events, and for the notified flags. No latched and no notified
flag falls, and a notified flag rises only for a latched event that may notify (R138 to R141). -/
def Ntu.onlyEvents (codes : List Event) (n n' : Ntu) : Prop :=
  n'.globalEnable = n.globalEnable ∧ n'.holdOff = n.holdOff ∧ n'.table.length = n.table.length
    ∧ (∀ k : Nat, (n'.table[k]?).map (fun e => (e.enable, e.level)) = (n.table[k]?).map fun e => (e.enable, e.level))
    ∧ (∀ k : Nat, k ∉ codes.map Event.code →
        (n'.table[k]?).map (fun e => (e.latched, e.live)) = (n.table[k]?).map fun e => (e.latched, e.live))
    ∧ ∀ (k : Nat) (e e' : EventEntry), n.table[k]? = some e → n'.table[k]? = some e' →
        (e.latched = true → e'.latched = true) ∧ (e.notified = true → e'.notified = true)
          ∧ (e'.notified = true → e.notified = true ∨ e'.latched = true ∧ n'.mayNotify k e')

/-- The entry of code `k` was notified between `s` and `t` (R141). -/
def NewlyNotified (s t : State) (k : Nat) : Prop :=
  (s.ntu.table[k]?).map (·.notified) = some false ∧ (t.ntu.table[k]?).map (·.notified) = some true

/-- The content of the NOTICE that a judgement between `s` and `t` leaves: the latched and live sets as they stand in `t`,
and the highest level among the entries notified and the NOTICE that waited (R141). -/
def NoticeContent (s t : State) (c : Notice) : Prop :=
  c.latched = t.ntu.table.map (·.latched) ∧ c.live = t.ntu.table.map (·.live)
    ∧ (∀ w, s.lki.notice = some w → w.level ≤ c.level)
    ∧ (∀ (k : Nat) (e : EventEntry), t.ntu.table[k]? = some e → NewlyNotified s t k → e.level ≤ c.level)
    ∧ ((∃ w, s.lki.notice = some w ∧ c.level = w.level)
        ∨ ∃ (k : Nat) (e : EventEntry), t.ntu.table[k]? = some e ∧ NewlyNotified s t k ∧ c.level = e.level)

/-- One judgement of eligibility took place between `s` and `t`. Where it notified an entry, the NOTICE stands in the slot,
merged with one that waited, or an idle transmitter has taken it; where it notified none, a busy transmitter leaves the slot
as it was (R141, R166). -/
def Noticed (s t : State) : Prop :=
  ((∃ k, NewlyNotified s t k) → ∃ c, NoticeContent s t c ∧ (s.lki.sending.isSome = true → t.lki.notice = some c)
      ∧ (s.lki.sending = none → t.lki.sending = some (.notice c) ∧ t.lki.notice = none))
    ∧ ((∀ k, ¬NewlyNotified s t k) → s.lki.sending.isSome = true → t.lki.notice = s.lki.notice)

/-- Eligibility was judged between `s` and `t`: an entry is notified in `t` exactly if it was, or if it is latched and may notify;
one that may not, a hold-off running for a level of 1 to 5 among the reasons, keeps its flag (R138, R140). -/
def Judged (s t : State) : Prop :=
  ∀ (k : Nat) (e e' : EventEntry), s.ntu.table[k]? = some e → t.ntu.table[k]? = some e' →
    (e'.notified = true ↔ e.notified = true ∨ e'.latched = true ∧ t.ntu.mayNotify k e')

/-- Every entry notified between `s` and `t` stands in a NOTICE, of its level at least and with its latched flag: in the slot,
or, with a transmitter that was idle, in transmission (R141, R166). -/
def Announced (s t : State) : Prop :=
  ∀ (k : Nat) (e : EventEntry), t.ntu.table[k]? = some e → NewlyNotified s t k →
    ∃ c : Notice, (t.lki.notice = some c ∨ s.lki.sending = none ∧ t.lki.sending = some (.notice c))
      ∧ e.level ≤ c.level ∧ c.latched[k]? = some true

/-- The event occurred between `s` and `t`: it is latched, and its occurrence was judged and told to the host where that may
be (R138, R140, R141). -/
def Occurred (s t : State) (e : Event) : Prop := t.ntu.isLatched e = true ∧ Judged s t ∧ Announced s t

/-- The events of PPC's conditions (Table 8-2). -/
def powerConditions : List Event := [.gaugeStale .a, .gaugeStale .b, .bridgeAlone, .bridgeLow, .bridgeFault]
/-- The events of LMC's conditions (Table 8-2). -/
def lightConditions : List Event := [.lightLost .front, .lightLost .top, .curveFault]

/-! ### Frames of the other blocks -/

/-- LMC is unchanged but for the curve's latch and checks, the target and the output. -/
def Lmc.onlyTarget (m m' : Lmc) : Prop :=
  m' = { m with
    curve := { m.curve with latch := m'.curve.latch, validationPending := m'.curve.validationPending
                            consistent := m'.curve.consistent }
    t0 := m'.t0, cPower := m'.cPower, target := m'.target, out := m'.out }

/-- What no event of PPC changes: SRT, MTM, RQH, the queue of commands; of LKI only the notice slot and the frame in
transmission may change. -/
def PowerFrame (s t : State) : Prop :=
  t.srt = s.srt ∧ t.mtm = s.mtm ∧ t.rqh = s.rqh ∧ t.pending = s.pending ∧ s.lki.onlyNotice t.lki

/-- The request of code `c` is in progress with this tag and these arguments (R152). -/
def Serving (s : State) (c : RequestCode) (tag : Byte) (args : List Byte) : Prop :=
  s.rqh.inProgress = some { tag := tag, code := c.byte, args := args }

/-- A request changed no block but for its reply: LKI's northbound part and RQH (R153, R154). -/
def OnlyReply (s t : State) : Prop :=
  s.lki.onlyNorth t.lki ∧ t.srt = s.srt ∧ t.ppc = s.ppc ∧ t.lmc = s.lmc ∧ t.mtm = s.mtm ∧ t.ntu = s.ntu
    ∧ t.pending = s.pending

/-- An event of one field port changed that port as `g` says and nothing else. -/
def OnlyPort (s t : State) (p : PortId) (g : FieldPort → FieldPort) : Prop :=
  t.lki.ports.get p = g (s.lki.ports.get p) ∧ (∀ q, q ≠ p → t.lki.ports.get q = s.lki.ports.get q)
    ∧ t = s.setLki { s.lki with ports := t.lki.ports }

/-- An event of PPC: beside PPC only the target of LMC, the given events and the conditions of PPC and LMC may change. -/
def OnlyPower (s t : State) (events : List Event) : Prop :=
  PowerFrame s t ∧ s.lmc.onlyTarget t.lmc
    ∧ s.ntu.onlyEvents (.bridgeExhausted :: .ceilingCut :: events ++ powerConditions ++ lightConditions) t.ntu

/-- Entry i is the entry for a source ID: valid, matching under its mask, and of the lowest index (R2). -/
def Srt.entryFor (r : Srt) (id : Byte) (i : Nat) (e : RouteEntry) : Prop :=
  r.table[i]? = some e ∧ e.valid = true ∧ id &&& e.mask = e.matchId &&& e.mask
    ∧ ∀ (j : Nat) (e' : RouteEntry), j < i → r.table[j]? = some e' → e'.valid = true → id &&& e'.mask ≠ e'.matchId &&& e'.mask

/-- No valid entry matches a source ID (R2, R7). -/
def Srt.noEntry (r : Srt) (id : Byte) : Prop :=
  ∀ e ∈ r.table, e.valid = true → id &&& e.mask ≠ e.matchId &&& e.mask

/-- The bridge passes the fault test and the charge test as a successor: it is fitted, and its last sample is present, shows the
fault flag clear and a charge of at least BR_RESERVE plus SWAP_MIN_MWH (R38). -/
def Ppc.bridgeReady (p : Ppc) : Prop :=
  p.bridge.fitted = true ∧ ∃ g, p.bridge.last = some g ∧ g.fault = false ∧ p.bridgeSet.reserve + p.bridgeSet.swapMin ≤ g.charge

/-- No bridge is fitted, or its last sample shows the fault flag (R38). -/
def Ppc.bridgeOut (p : Ppc) : Prop := p.bridge.fitted = false ∨ ∃ g, p.bridge.last = some g ∧ g.fault = true

/-- The bridge is fitted and not faulted, and its charge test fails or it has no sample (R38). -/
def Ppc.bridgeShort (p : Ppc) : Prop :=
  p.bridge.fitted = true ∧ (p.bridge.last = none
    ∨ ∃ g, p.bridge.last = some g ∧ g.fault = false ∧ g.charge < p.bridgeSet.reserve + p.bridgeSet.swapMin)

/-- The release of slot `x`, judged on `s` in the regime `regime` where the motion phase is IDLE or not: the outcome, and what
`t` holds of the record (R37 to R40). -/
def Released (s t : State) (x : Slot) (regime : Regime) (out : ReleaseResult) : Prop :=
  let k := s.ppc.pack x
  let k' := t.ppc.pack x
  let standby := (s.ppc.pack (otherSlot x)).state = .standby
  let refused := fun r : Reason => out = .refused r ∧ k' = { k with lastRefusal := some r }
  (k.state ∈ [PackState.releasing, .unlocked, .fault, .empty] → out = .ignored ∧ t.ppc = s.ppc)
    ∧ (k.state ∈ [PackState.online, .standby, .seated, .qualifying] → s.mtm.phase ≠ .idle → refused .motion)
    ∧ (k.state ∈ [PackState.seated, .qualifying] → s.mtm.phase = .idle →
        out = .done ∧ k' = { k with qualTimer := none, staleTimer := none, lock := false, state := .unlocked
                                    holdTimer := some s.ppc.profile.unlockHold })
    ∧ (k.state = .standby → s.mtm.phase = .idle →
        out = .done ∧ k' = { k with state := .releasing, switch := false
                                    confirmTimer := some s.ppc.profile.releaseConfirm })
    ∧ (k.state = .online → s.mtm.phase = .idle →
        (standby ∨ s.ppc.bridgeReady ∧ regime = .attended →
          out = .done ∧ k' = { k with state := .releasing, switch := false
                                      confirmTimer := some s.ppc.profile.releaseConfirm })
        ∧ (¬standby → s.ppc.bridgeOut → refused .noSuccessor)
        ∧ (¬standby → s.ppc.bridgeShort → refused .bridgeLow)
        ∧ (¬standby → s.ppc.bridgeReady → regime = .unattended → refused .unattended))

/-! ### Selection, settlement and the target -/

/-- What a selection run may do to a pack record: a STANDBY pack is closed, or an ONLINE one stands down (R33). -/
def Pack.onlySelected (k k' : Pack) : Prop :=
  k' = k ∨ (k.state = .standby ∧ k' = { k with state := .online, switch := true })
    ∨ (k.state = .online ∧ k' = { k with state := .standby, switch := false })

/-- PPC is unchanged but for the pack records, the switches, the settle timer, the swap window and the budget. -/
def Ppc.onlySelection (p p' : Ppc) : Prop :=
  p' = { p with
    packA := p'.packA, packB := p'.packB, budget := p'.budget, swDc := p'.swDc, settleTimer := p'.settleTimer
    bridge := { p.bridge with switch := p'.bridge.switch, alone := p'.bridge.alone, window := p'.bridge.window
                              exhausted := p'.bridge.exhausted } }

/-- A request of PPC: beside PPC and the reply only the target of LMC, the given events and the conditions may change. -/
def OnlyPowerReply (s t : State) (events : List Event) : Prop :=
  t.srt = s.srt ∧ t.mtm = s.mtm ∧ t.pending = s.pending ∧ s.lki.onlyNorth t.lki ∧ s.lmc.onlyTarget t.lmc
    ∧ s.ntu.onlyEvents (.bridgeExhausted :: .ceilingCut :: events ++ powerConditions ++ lightConditions) t.ntu

/-- A request of LMC: beside LMC and the reply only the conditions of LMC may change. -/
def OnlyLightReply (s t : State) : Prop :=
  t.srt = s.srt ∧ t.ppc = s.ppc ∧ t.mtm = s.mtm ∧ t.pending = s.pending ∧ s.lki.onlyNorth t.lki
    ∧ s.ntu.onlyEvents lightConditions t.ntu

/-- A request of MTM or NTU that leaves the other blocks alone but for its reply. -/
def OnlyOwnReply (s t : State) : Prop :=
  t.srt = s.srt ∧ t.ppc = s.ppc ∧ t.lmc = s.lmc ∧ t.pending = s.pending ∧ s.lki.onlyNorth t.lki

/-- P_av, A_bl and C_power are those of the switches, records and settings (R56 steps 2 and 3, R57). -/
def Ppc.settled (p : Ppc) : Prop :=
  p.budget.pAv = (if p.swDc then p.power.dcLimit else 0)
      + (if p.packA.state = .online then p.packA.allowance
         else if p.packB.state = .online then p.packB.allowance else 0)
      + (if p.bridge.switch && !p.swDc && !p.packA.switch && !p.packB.switch then p.bridgeSet.pmax else 0)
    ∧ p.budget.aBl = min (p.budget.pAv - p.power.pSys - p.power.margin) p.pBlMax
    ∧ p.budget.cPower = if p.bridge.exhausted then 0 else p.budget.aBl * 4095 / p.pBlMax

/-- The swap window in ms for a charge, the reserve and a load: floor((charge - BR_RESERVE) x 3,600,000 / load), at most
600000, which a load of 0 gives, and 0 at or below the reserve (R58). -/
def swapWindow (charge reserve load : Nat) : Nat :=
  if charge ≤ reserve then 0 else if load = 0 then 600000 else min ((charge - reserve) * 3600000 / load) 600000

/-- The load at the backlight level `b`: P_SYS and the share floor(b x P_BL_MAX / 4095) (R58). -/
def Ppc.loadAt (p : Ppc) (b : Nat) : Nat := p.power.pSys + b * p.pBlMax / 4095

/-- The bridge record holds a computed window: RUNNING with it, or, where it is 0, exhausted without one (R58, R59). -/
def Bridge.holds (b : Bridge) (w : Nat) : Prop :=
  (0 < w → b.window = .running w ∧ b.exhausted = false) ∧ (w = 0 → b.window = .none ∧ b.exhausted = true)

/-- What an event of PPC does where carrying alone passes from no to yes or from yes to no. It begins: BRIDGE_ALONE is
live, and latched on its edge; with exhausted yes there is no window, without a sample it is WAITING, and otherwise it is
computed at the smaller of O and the C_power of this settlement. It ends: the window is cancelled (R53, R56 step 4, R58 to
R60). -/
def AloneFollows (s t : State) : Prop :=
  let b := s.ppc.bridge
  let b' := t.ppc.bridge
  (b.alone = false → b'.alone = true →
      t.ntu.isLive .bridgeAlone = true ∧ (s.ntu.isLive .bridgeAlone = false → Occurred s t .bridgeAlone)
        ∧ (b.exhausted = true → b'.window = .none ∧ b'.exhausted = true)
        ∧ (b.exhausted = false → b.last = none → b'.window = .waiting ∧ b'.exhausted = false)
        ∧ (b.exhausted = false → ∀ g, b.last = some g →
            let w := swapWindow g.charge t.ppc.bridgeSet.reserve
              (t.ppc.loadAt (min s.lmc.out (t.ppc.budget.aBl * 4095 / t.ppc.pBlMax)))
            b'.holds w ∧ (w = 0 → t.ppc.budget.cPower = 0 ∧ Occurred s t .bridgeExhausted)))
    ∧ (b.alone = true → b'.alone = false → b'.window = .none)

/-- The value of the curve at `f` after an evaluation: the end values outside the points, the interpolation in the latched
segment within them (R89 to R91). -/
def Curve.gives (c : Curve) (f y : Nat) : Prop :=
  (c.latch = none ∧ ((f ≤ (c.point 0).x ∧ y = (c.point 0).y) ∨ ((c.point (c.n - 1)).x ≤ f ∧ y = (c.point (c.n - 1)).y)))
    ∨ ∃ i, c.latch = some i ∧ (c.point i).x ≤ f ∧ f < (c.point (i + 1)).x
        ∧ y = (((c.point i).y : Int) + Int.tdiv ((((c.point (i + 1)).y : Int) - (c.point i).y) * ((f : Int) - (c.point i).x))
            (((c.point (i + 1)).x : Int) - (c.point i).x)).toNat

/-- The target record after a recomputation: T0 by the mode, T the smallest of T0 and the ceilings in force (R92, R96). -/
def Lmc.aimed (m : Lmc) : Prop :=
  m.target = (if m.regime = .unattended then min (min m.t0 m.cPower) m.set.cUnatt else min m.t0 m.cPower)
    ∧ (m.mode = .fail → m.t0 = m.curve.failLevel)
    ∧ (m.mode = .forced → ∀ v, m.forced = some v → m.t0 = v)
    ∧ (m.mode = .curve → m.curve.consistent = true → ∀ f, m.f = some f →
        ∃ y, m.curve.gives f y ∧ (m.t0 : Int) = clampInt ((y : Int) + m.bias) m.curve.floor 4095)

/-- The value of segment `i` at `f`, the quotient rounded toward zero (R91). -/
def Curve.value (c : Curve) (i f : Nat) : Nat :=
  (((c.point i).y : Int) + Int.tdiv ((((c.point (i + 1)).y : Int) - (c.point i).y) * ((f : Int) - (c.point i).x))
    (((c.point (i + 1)).x : Int) - (c.point i).x)).toNat

/-- An evaluation of the curve `c` at `f` leaves the curve `c'` and gives `y`. With `f` in the latched segment nothing is
searched. Otherwise a full search clears validation-pending; neighbouring points in use that do not rise make the curve
inconsistent, without latch and value, and else it is consistent, with the end values outside the points and the segment of `f`
latched within them (R89, R90). -/
def Curve.Evaluates (c : Curve) (f : Nat) (c' : Curve) (y : Option Nat) : Prop :=
  let within := fun i : Nat => (c.point i).x ≤ f ∧ f < (c.point (i + 1)).x
  let broken := ∃ k < c.n - 1, (c.point (k + 1)).x ≤ (c.point k).x
  (∀ i, c.latch = some i → within i → c' = c ∧ y = some (c.value i f))
    ∧ ((∀ i, c.latch = some i → ¬within i) →
        c' = { c with latch := c'.latch, validationPending := false, consistent := c'.consistent }
        ∧ (broken → c'.consistent = false ∧ c'.latch = none ∧ y = none)
        ∧ (¬broken → c'.consistent = true
            ∧ (f ≤ (c.point 0).x → c'.latch = none ∧ y = some (c.point 0).y)
            ∧ ((c.point 0).x < f → (c.point (c.n - 1)).x ≤ f → c'.latch = none ∧ y = some (c.point (c.n - 1)).y)
            ∧ ((c.point 0).x < f → ∀ i < c.n - 1, within i → c'.latch = some i ∧ y = some (c.value i f))))

/-- A recomputation of the target takes `m` to `m'`: T0 by the mode, held where the evaluation gives no value, T the smallest of
T0 and the ceilings in force, and nothing else changed but what the evaluation leaves of the curve (R92, R96). -/
def Lmc.Recomputed (m m' : Lmc) : Prop :=
  m' = { m with curve := m'.curve, t0 := m'.t0, target := m'.target }
    ∧ m'.target = (if m.regime = .unattended then min (min m'.t0 m.cPower) m.set.cUnatt else min m'.t0 m.cPower)
    ∧ (m.mode = .fail → m'.curve = m.curve ∧ m'.t0 = m.curve.failLevel)
    ∧ (m.mode = .forced → m'.curve = m.curve ∧ ∀ v, m.forced = some v → m'.t0 = v)
    ∧ (m.mode = .curve → ∀ f, m.f = some f → ∃ y, m.curve.Evaluates f m'.curve y ∧ (y = none → m'.t0 = m.t0)
        ∧ ∀ v, y = some v → (m'.t0 : Int) = clampInt ((v : Int) + m.bias) m.curve.floor 4095)

/-- The owner of the condition event `e` delivers the condition as `v`: the live flag takes it, the event occurs where the live
flag rises, and it is not raised again while it stands or where it falls (R139). -/
def ConditionFollows (s t : State) (e : Event) (v : Bool) : Prop :=
  s.ntu.table.length = 32 →
    t.ntu.isLive e = v ∧ (s.ntu.isLive e = false → v = true → Occurred s t e)
      ∧ (s.ntu.isLive e = true ∨ v = false → t.ntu.isLatched e = s.ntu.isLatched e)

/-- An event of LMC delivers the consistency state: the condition of CURVE_FAULT is an inconsistent curve (R90, R139). -/
def FaultFollows (s t : State) : Prop := ConditionFollows s t .curveFault (!t.lmc.curve.consistent)

/-- LMC of `t` is a recomputation of what stands in `t`, from the curve and the target record of `s` (R81, R96). -/
def Retargeted (s t : State) : Prop :=
  ({ t.lmc with curve := s.lmc.curve, t0 := s.lmc.t0, target := s.lmc.target } : Lmc).Recomputed t.lmc

/-- The curve and the target record stay (R81). -/
def TargetKept (s t : State) : Prop :=
  t.lmc.curve = s.lmc.curve ∧ t.lmc.t0 = s.lmc.t0 ∧ t.lmc.target = s.lmc.target

/-- The C_power that stands in `t` reaches LMC, which `m` was without it: one that differs from the value last delivered is
stored, the target is recomputed, and O above it is cut to it with CEILING_CUT, which nothing else raises; another changes
nothing at LMC (R62, R97). -/
def CeilingDelivered (m : Lmc) (s t : State) : Prop :=
  let c := t.ppc.budget.cPower
  t.ppc.budget.delivered = c
    ∧ (c = s.ppc.budget.delivered → t.lmc = m ∧ t.ntu.isLatched .ceilingCut = s.ntu.isLatched .ceilingCut)
    ∧ (c ≠ s.ppc.budget.delivered →
        t.lmc.out = min m.out c ∧ ({ m with cPower := c, out := t.lmc.out } : Lmc).Recomputed t.lmc ∧ FaultFollows s t
          ∧ (s.ntu.table.length = 32 → c < m.out → Occurred s t .ceilingCut)
          ∧ (m.out ≤ c → t.ntu.isLatched .ceilingCut = s.ntu.isLatched .ceilingCut))

/-- An event of PPC delivers a changed C_power, from a state whose C_power is delivered (R62). -/
def CeilingFollows (s t : State) : Prop :=
  s.ppc.budget.cPower = s.ppc.budget.delivered → CeilingDelivered s.lmc s t

/-- An event of slot `x`: the other slot may only be selected or stand down, no setting and no input of PPC changes, and
a changed C_power reaches LMC. -/
def OnlySlot (s t : State) (x : Slot) (events : List Event) : Prop :=
  OnlyPower s t events ∧ s.ppc.onlySelection t.ppc ∧ CeilingFollows s t
    ∧ (s.ppc.pack (otherSlot x)).onlySelected (t.ppc.pack (otherSlot x))

/-! ### Factory defaults -/

/-- The factory route table, as Table 1-3 and R9 list it. -/
def routeDefaults : List RouteEntry :=
  ([(0x10#8, TapRole.accel), (0x20#8, .lightFront), (0x21#8, .lightTop), (0x30#8, .gaugeA), (0x31#8, .gaugeB), (0x38#8, .bridge)].map
    fun (source, tap) =>
      { valid := true, pinned := false, matchId := source, mask := 0xFF#8, action := .forward, factor := 0, tap := tap
        guarded := false, port := .fp0, passed := 0, withheld := 0, phase := 0 })
  ++ List.replicate 18
      { valid := false, pinned := false, matchId := 0x00#8, mask := 0x00#8, action := .suppress, factor := 0, tap := .noTap
        guarded := false, port := .fp0, passed := 0, withheld := 0, phase := 0 }

/-- Every setting at its factory default, as Tables 2-2, 3-2, 3-3, 4-3, 5-1, 5-2, 5-4 and 6-3 list them. -/
def State.settingsDefault (t : State) : Prop :=
  t.ppc.profile =
      { qvMin := 12000, qvMax := 17400, qualNeeded := 3, qualTimeout := 5000, tLow := -200, tCut := 600, vCut := 11000
        t1 := 0, t2 := 100, t3 := 450, imax0 := 800, imax1 := 2000, imax2 := 4000, imax3 := 2500, pmaxPack := 60000
        staleAllow := 10000, gaugeStale := 1500, rotateMwh := 3000, rotateGap := 2000, releaseMa := 50
        releaseConfirm := 300, unlockHold := 15000 }
    ∧ t.ppc.bridgeSet = { reserve := 300, swapMin := 400, compare := 600, pmax := 25000 }
    ∧ t.ppc.power = { pSys := 18000, dcLimit := 45000, margin := 2000 } ∧ t.ppc.pBlMax = 8000
    ∧ t.lmc.front.gains = ⟨64, 256, 1024, 4096⟩ ∧ t.lmc.top.gains = ⟨64, 256, 1024, 4096⟩
    ∧ t.lmc.set = { wTop := 6, deadBand := 24, sUp := 1, sDown := 4, lightStale := 2000, stepMs := 16, ru := 32, rd := 16
                    pBlMax := 8000, cUnatt := 1024 }
    ∧ t.lmc.curve = { n := 4, floor := 150, failLevel := 3200
                      points := [⟨0, 300⟩, ⟨2048, 900⟩, ⟨3328, 2400⟩, ⟨4352, 4095⟩] ++ List.replicate 12 ⟨0, 0⟩
                      latch := none, validationPending := false, consistent := true }
    ∧ t.mtm.set = { ffThresh := 350, ffCount := 8, ffMax := 800, impactThresh := 6000, quietBand := 150, quietCount := 200
                    settleMax := 4000, protectHold := 500, accelStale := 50 }

/-! ### Samples -/

/-- A good frame whose sample reaches the engine of tap role `role` through entry i, with the kind that role takes, where no
RESTART takes effect before it (R2, R6, R124, R169). -/
def Tapped (s : State) (f : WireFrame) (i : Nat) (e : RouteEntry) (role : TapRole) : Prop :=
  portFrameGood f = true ∧ s.srt.entryFor (sampleOf f.body).source i e ∧ e.tap = role
    ∧ (sampleOf f.body).kindCode = role.kind ∧ s.restartGranted = false

/-- A gauge tap role and its slot (Table 1-2). -/
def gaugeRole : Slot → TapRole
  | .a => .gaugeA
  | .b => .gaugeB

/-- A light tap role (Table 1-2). -/
def lightTap : LightRole → TapRole
  | .front => .lightFront
  | .top => .lightTop

/-- The sample is offered to the sample queue through entry i: FORWARD in force, or DECIMATE at phase 0 (R3 to R5). -/
def Srt.offers (r : Srt) (i : Nat) (e : RouteEntry) : Bool :=
  r.overrideEntry == some i || e.action == .forward || (e.action == .decimate && e.phase == 0)

/-! ### Commands that the state rules out -/

/-- The command names an event that cannot take place in this state: a change to the level that holds, the expiry of a
stopped timer, a gap without a frame, the end of no transmission, a request that is not in progress (log entry 2). -/
def State.rulesOut (s : State) : Instr → Bool
  | .seating x => (s.ppc.pack x).presence
  | .presenceLoss x => !(s.ppc.pack x).presence
  | .leverPress x => (s.ppc.pack x).lever
  | .leverRelease x => !(s.ppc.pack x).lever
  | .dcinOkChange v => s.ppc.dcinOk == v
  | .brPresChange v => s.ppc.bridge.fitted == v
  | .qualTimeoutExpiry x => (s.ppc.pack x).qualTimer.isNone
  | .gaugeStaleExpiry x => (s.ppc.pack x).staleTimer.isNone
  | .releaseConfirmExpiry x => (s.ppc.pack x).confirmTimer.isNone
  | .unlockHoldExpiry x => (s.ppc.pack x).holdTimer.isNone
  | .transferSettleExpiry => s.ppc.settleTimer.isNone
  | .swapWindowExpiry => s.ppc.bridge.window == .none || s.ppc.bridge.window == .waiting
  | .lightStaleExpiry r => (s.lmc.role r).timer.isNone
  | .accelStaleExpiry => s.mtm.staleTimer.isNone
  | .protectHoldExpiry => s.mtm.holdTimer.isNone
  | .holdOffExpiry => s.ntu.holdOff.isNone
  | .silenceTimeoutExpiry => s.lki.silenceTimer.isNone
  | .uplinkByteGap => s.lki.rx == .hunting
  | .portByteGap p => (s.lki.ports.get p).rx == .hunting
  | .transmitComplete => s.lki.sending.isNone
  | .unknownRequest => s.rqh.inProgress.all fun r => (RequestCode.ofByte r.code).isSome
  | i => RequestCode.all.any fun c => c.row == i && s.rqh.inProgress.all fun r => r.code != c.byte

/-! ### Invariants -/

/-- A pack's lock may be released only where no switch of it can be closed; a pending release belongs to a RELEASING or
FAULT pack that waits for the phase IDLE; RELEASE_CONFIRM runs only in RELEASING (R25, R31, R41, R42). -/
def Pack.safe (k : Pack) : Prop :=
  (k.switch = true ↔ k.state = .online) ∧ (k.presence = false ↔ k.state = .empty)
    ∧ (k.state ∈ [PackState.seated, .qualifying, .standby, .online, .releasing] → k.lock = true)
    ∧ (k.lockPending = true → (k.state = .releasing ∨ k.state = .fault) ∧ k.confirmTimer = none)
    ∧ (k.confirmTimer.isSome = true → k.state = .releasing)

/-- The switches: one main source at most, SW_DC as DCIN_OK says, no STANDBY pack left waiting where nothing main is closed,
the bridge closed where nothing else is and during brace, and the bridge record in step with them (R25, R33 to R35, R52 to
R54, R56, R58, R59). -/
def Ppc.safe (p : Ppc) : Prop :=
  p.packA.safe ∧ p.packB.safe ∧ ¬(p.packA.switch = true ∧ p.packB.switch = true) ∧ p.swDc = p.dcinOk
    ∧ (p.swDc = true → p.packA.switch = false ∧ p.packB.switch = false)
    ∧ (p.swDc = false → p.packA.switch = false → p.packB.switch = false →
        p.packA.state ≠ .standby ∧ p.packB.state ≠ .standby)
    ∧ (p.bridge.switch = true → p.bridge.fitted = true)
    ∧ (p.bridge.fitted = true → p.bridgeNeeded = true → p.bridge.switch = true)
    ∧ p.bridge.alone = p.carriesAlone
    ∧ (p.bridge.window ≠ .none → p.bridge.alone = true ∧ p.bridge.exhausted = false)

/-- The ceiling: LMC holds the C_power that PPC last settled, the output never stands above it, and an exhausted bridge
allows none (R57, R59, R62, R96, R97). -/
def State.underCeiling (s : State) : Prop :=
  s.ppc.budget.cPower = s.ppc.budget.delivered ∧ s.lmc.cPower = s.ppc.budget.delivered ∧ s.lmc.cPower ≤ 4095
    ∧ s.lmc.target ≤ s.lmc.cPower ∧ s.lmc.out ≤ s.lmc.cPower
    ∧ (s.ppc.bridge.exhausted = true → s.ppc.budget.cPower = 0)

/-- The copies that blocks hold of each other's state agree, and a RESTART that was taken in IDLE is in progress only while
the phase is IDLE (R19, R38, R54, R79, R98, R101, R110, R124, R159). -/
def State.copiesAgree (s : State) : Prop :=
  s.rqh.phaseCopy = s.mtm.phase ∧ s.ppc.brace = s.park ∧ s.lmc.freeze = s.park
    ∧ (s.srt.overrideEntry.isSome = true → s.park = true)
    ∧ s.ppc.regime = s.lki.regime ∧ s.lmc.regime = s.lki.regime ∧ s.ppc.pBlMax = s.lmc.set.pBlMax
    ∧ (s.restartGranted = true → s.mtm.phase = .idle)

/-- The conditions that the blocks own, as Table 8-2 lists them. -/
def State.conditions (s : State) : List (Event × Bool) :=
  s.ppc.conditions ++ s.lmc.conditions ++ [(.motionBlind, !s.mtm.live)]

/-- The live flag that an event code must show: its condition, or no for an event that is none (R137, R139). -/
def State.liveOf (s : State) (k : Nat) : Bool := s.conditions.any fun c => c.1.code == k && c.2

/-- The event table: 32 entries, notified only where latched, the levels of the hard events fixed and the others at most 7,
every live flag its condition (R137 to R139, R141, R143). -/
def State.eventsTrue (s : State) : Prop :=
  s.ntu.table.length = Config.eventCodes
    ∧ ∀ (k : Nat) (e : EventEntry), s.ntu.table[k]? = some e →
        (e.notified = true → e.latched = true) ∧ e.live = s.liveOf k
          ∧ (match hardLevel k with
             | some l => e.level = l
             | none => e.level ≤ 7)

/-- An entry's factor agrees with its action, its phase is below its factor, its counters are 16 bits wide (R1, R4, R10). -/
def RouteEntry.sound (e : RouteEntry) : Prop :=
  e.action.factorOk e.factor = true ∧ (e.action = .decimate → e.phase < e.factor) ∧ (e.action ≠ .decimate → e.phase = 0)
    ∧ e.passed ≤ 65535 ∧ e.withheld ≤ 65535

/-- SRT: 24 sound entries, 54 held values, and an override only on a valid entry (R1, R14, R19, R21). -/
def Srt.sound (r : Srt) : Prop :=
  r.table.length = Config.routeEntries ∧ (∀ e ∈ r.table, e.sound) ∧ r.unmatched ≤ 65535
    ∧ r.holding.length = Config.holdingValues
    ∧ ∀ i, r.overrideEntry = some i → (r.table[i]?).any (·.valid) = true

/-- The queues of the link stay within their places, a request in progress has a place for its reply, an idle transmitter
has nothing to send, and RQH waits only where R152 lets it (R150 to R152, R154, R166, R167). -/
def State.queuesSound (s : State) : Prop :=
  s.rqh.queue.length ≤ Config.requestPlaces ∧ s.lki.replyCount ≤ Config.replyPlaces
    ∧ s.lki.busyCount ≤ Config.busyPlaces ∧ s.lki.samples.length ≤ Config.samplePlaces
    ∧ (s.rqh.inProgress.isSome = true → s.lki.replyCount < Config.replyPlaces)
    ∧ (s.lki.sending = none → s.lki.notice = none ∧ s.lki.stream = [] ∧ s.lki.samples = [])
    ∧ (s.rqh.inProgress = none → s.headWaits)

/-- The motion phase is one in which a record is open (R111 to R116). -/
def Phase.recording : Phase → Bool
  | .falling | .impact | .settle => true
  | .idle | .hold => false

/-- A count of MTM or of a record one higher, held at `top` (R112, R113, R115). -/
def heldAt (n top : Nat) : Nat := if n < top then n + 1 else n

/-- The peak that an ACCEL sample of magnitude `m` gives: the axis of the largest absolute value, X before Y before Z, and its
sign (R114). -/
def PeakOf (a : Accel) (m : Nat) (q : Peak) : Prop :=
  let hi := max (max a.x.natAbs a.y.natAbs) a.z.natAbs
  q.magnitude = m
    ∧ (a.x.natAbs = hi → q.axis = .x ∧ (q.negative = true ↔ a.x < 0))
    ∧ (a.x.natAbs < hi → a.y.natAbs = hi → q.axis = .y ∧ (q.negative = true ↔ a.y < 0))
    ∧ (a.x.natAbs < hi → a.y.natAbs < hi → q.axis = .z ∧ (q.negative = true ↔ a.z < 0))

/-- A pack is RELEASING or UNLOCKED, which a drop record keeps as a swap in progress (R126). -/
def Ppc.swapInProgress (p : Ppc) : Prop :=
  ∃ x, (p.pack x).state = .releasing ∨ (p.pack x).state = .unlocked

/-- An ACCEL sample changes nothing of PPC but brace and SW_BR, with what the settlement of that switch gives, and nothing of
LMC but the freeze and the target record (R54, R56, R79). -/
def OnlyBraced (s t : State) : Prop :=
  t.ppc = { s.ppc with
      brace := t.ppc.brace, budget := t.ppc.budget
      bridge := { s.ppc.bridge with switch := t.ppc.bridge.switch, alone := t.ppc.bridge.alone
                                    window := t.ppc.bridge.window, exhausted := t.ppc.bridge.exhausted } }
    ∧ ({ s.lmc with freeze := t.lmc.freeze }).onlyTarget t.lmc

/-- A sample of magnitude `m` below IMPACT_THRESH was tested in SETTLE, from the quiet and settle counts `quiet` and `settled`,
against the settings of `before`: `after` is MTM and `r` the record that it leaves. The settle count counts; the quiet sample that
reaches QUIET_COUNT ends the settling as QUIET, else SETTLE_MAX ends it as UNSETTLED, else it goes on with the quiet count (R115). -/
def SettleTested (before : Mtm) (quiet settled m : Nat) (after : Mtm) (r : DropRecord) : Prop :=
  let isQuiet := m ≤ 1000 + before.set.quietBand ∧ 1000 ≤ m + before.set.quietBand
  let ends := isQuiet ∧ before.set.quietCount ≤ heldAt quiet 65535
  after.settled = heldAt settled 65535
    ∧ (ends → after.phase = .hold ∧ r.outcome = .quiet)
    ∧ (¬ends → before.set.settleMax ≤ heldAt settled 65535 → after.phase = .hold ∧ r.outcome = .unsettled)
    ∧ (¬ends → heldAt settled 65535 < before.set.settleMax →
        after.phase = .settle ∧ r.isOpen = true ∧ (isQuiet → after.quiet = heldAt quiet 65535) ∧ (¬isQuiet → after.quiet = 0))

/-- The drop ring: at most 8 records with consecutive sequence numbers, the newest one open exactly while the phase records,
the others closed; capture lists and history within their places; PROTECT_HOLD runs exactly in HOLD (R106, R116, R117, R128,
R130, R131, R133). -/
def Mtm.sound (m : Mtm) : Prop :=
  m.ring.length ≤ Config.dropRecords ∧ m.history.length ≤ Config.historyPlaces ∧ m.nextSeq < 65536
    ∧ (∀ (i : Nat) (r : DropRecord), m.ring[i]? = some r →
        r.seq < 65536 ∧ (r.seq + (m.ring.length - i)) % 65536 = m.nextSeq ∧ r.capture.length ≤ Config.capturePlaces
          ∧ r.bounces ≤ 15 ∧ r.peak.isSome = r.lead.isSome ∧ (r.isOpen = true ↔ i + 1 = m.ring.length ∧ m.phase.recording = true))
    ∧ (m.phase.recording = true → m.ring ≠ [])
    ∧ (m.holdTimer.isSome = true ↔ m.phase = .hold)

end Sys2Proof.Machine
end

