-- ==== Sys2Proof/Certificates/Slice0/Obligations.lean ====
section
/-! DEFINITION. The statements for the provers. Helper notions are in Sys2Proof/Safety.lean. A statement about a request
row speaks of a state in which that request is in progress with its argument list (log entry 1). -/

open Sys2Proof Sys2Proof.Machine

/-! ### The machine -/

/-- A step takes the command at the front of the queue and runs it on the queue's rest. -/
def Obligations.StepRunsTheFrontCommand : Prop :=
  ∀ (c : Instr) (s : State), step (s.setPending (c :: s.pending)) = exec c s

/-- The model's choice (log entry 3): with no command waiting the part carries out the request in progress, then a due
timer expires, and only then one millisecond passes. -/
def Obligations.EmptyQueueRunsThePart : Prop :=
  ∀ s : State, s.pending = [] →
    (∀ r, s.rqh.inProgress = some r →
      step s = exec (((RequestCode.ofByte r.code).map RequestCode.row).getD .unknownRequest) s)
    ∧ (∀ i, s.ownEvent = some i → step s = exec i s)
    ∧ (s.ownEvent = none → step s = .next s.tick)

/-- No command stops the machine, and none touches the queue of commands (INVENTORY.md, Faults). -/
def Obligations.EveryCommandCompletes : Prop :=
  ∀ (c : Instr) (s : State), ∃ t, exec c s = .next t ∧ t.pending = s.pending

/-! ### Invariants of every step -/

/-- R25, R33 to R35, R42, R52 to R54, R58: one main source at most, the switches as the states say, the bridge where it is
needed, every lock engaged while its pack can be closed. -/
def Obligations.SwitchesStaySafe : Prop := ∀ s t : State, s.ppc.safe → step s = .next t → t.ppc.safe

/-- R57, R59, R62, R96, R97: the backlight output never exceeds C_power. -/
def Obligations.OutputStaysUnderCeiling : Prop := ∀ s t : State, s.underCeiling → step s = .next t → t.underCeiling

/-- R56, R57: P_av, A_bl and C_power are at all times those of the switches, records and settings. -/
def Obligations.BudgetStaysSettled : Prop :=
  ∀ s t : State, s.ppc.safe → s.ppc.settled → step s = .next t → t.ppc.settled

/-- R19, R54, R79, R101, R110, R124, R159: brace, freeze, RQH's phase copy, the override, the regimes and P_BL_MAX stay in step,
and a RESTART that was taken in IDLE is in progress only while the phase is IDLE, so that it is carried out in IDLE. That it takes
effect before a sample that finds it in progress is the model's order (log entry 29). -/
def Obligations.CopiesStayInStep : Prop := ∀ s t : State, s.copiesAgree → step s = .next t → t.copiesAgree

/-- R137 to R141: every live flag is its condition, a notified entry is latched, the hard levels stay fixed. -/
def Obligations.EventTableStaysTrue : Prop := ∀ s t : State, s.eventsTrue → step s = .next t → t.eventsTrue

/-- R1, R13, R14, R19, R21: the route table keeps its fields consistent and an override names a valid entry. -/
def Obligations.RouteTableStaysSound : Prop := ∀ s t : State, s.srt.sound → step s = .next t → t.srt.sound

/-- R150 to R152, R154, R166, R167: no queue overflows, the transmitter idles only with nothing to send, and RQH takes its head
whenever R152 lets it. -/
def Obligations.QueuesStaySound : Prop := ∀ s t : State, s.queuesSound → step s = .next t → t.queuesSound

/-- R106, R116, R117, R125, R128, R130, R131, R133: the drop ring stays in order, with an open record exactly while the
phase records one. -/
def Obligations.DropRingStaysSound : Prop := ∀ s t : State, s.mtm.sound → step s = .next t → t.mtm.sound

/-- The reset state meets all of them. -/
def Obligations.ResetIsSafe : Prop :=
  State.reset.ppc.safe ∧ State.reset.ppc.settled ∧ State.reset.underCeiling ∧ State.reset.copiesAgree ∧ State.reset.eventsTrue
    ∧ State.reset.srt.sound ∧ State.reset.queuesSound ∧ State.reset.mtm.sound

/-! ### Power-on reset -/

/-- R9, R22, R46, R66, R83, R104, R121, R135, R148, R163, R171: what power-on reset leaves, for every level of the pins, and
the levels driven while reset is held; with no pin active it is the model's reset state (log entry 5). -/
def Obligations.PowerOnReset : Prop :=
  ∀ (pins : Pins) (s : State), ∃ t, exec (.powerOnReset pins) s = .next t
    ∧ Pins.heldOutputs pins = { swDc := false, swA := false, swB := false, swBr := pins.brPres, lockA := pins.presA
                                lockB := pins.presB, park := false, bl := 0 }
    ∧ t.outputs = { Pins.heldOutputs pins with swDc := pins.dcinOk, swBr := pins.brPres && !pins.dcinOk }
    ∧ t.ppc.swDc = pins.dcinOk ∧ t.ppc.packA.switch = false ∧ t.ppc.packB.switch = false
    ∧ t.ppc.bridge = { fitted := pins.brPres, last := none, low := false, switch := pins.brPres && !pins.dcinOk
                       alone := pins.brPres && !pins.dcinOk
                       window := if pins.brPres && !pins.dcinOk then Window.waiting else .none, exhausted := false }
    ∧ t.ppc.dcinOk = pins.dcinOk ∧ t.ppc.settleTimer = none ∧ t.ppc.brace = false ∧ t.ppc.regime = .attended
    ∧ (let record := fun present pressed : Bool =>
         ({ state := if present then .seated else .empty, presence := present, lever := pressed, lock := present
            switch := false, sample := none, age := none, stale := false, qual := 0, allowance := 0, faultCause := none
            lastRefusal := none, lossCause := none, lockPending := false, qualTimer := none, confirmTimer := none
            holdTimer := none, staleTimer := if present then some 1500 else none
            presPin := { raw := present, timer := none }, leverPin := { raw := pressed, timer := none } } : Pack)
       t.ppc.packA = record pins.presA pins.leverA ∧ t.ppc.packB = record pins.presB pins.leverB)
    ∧ t.ppc.budget.cPower = (if pins.dcinOk then 4095 else if pins.brPres then 2559 else 0)
    ∧ t.lmc.cPower = t.ppc.budget.cPower ∧ t.lmc.out = 0 ∧ t.bl = 0 ∧ t.lmc.mode = .fail
    ∧ t.lmc.e = none ∧ t.lmc.lg = none ∧ t.lmc.f = none ∧ t.lmc.valid = false ∧ t.lmc.freeze = false ∧ t.lmc.bias = 0
    ∧ t.lmc.forced = none ∧ t.lmc.regime = .attended ∧ t.lmc.stepTimer = 16
    ∧ (∀ r, (t.lmc.role r).live = false ∧ (t.lmc.role r).lux = none ∧ (t.lmc.role r).timer = none)
    ∧ t.park = false
    ∧ t.mtm = { phase := .idle, lowRun := 0, midRun := 0, quiet := 0, settled := 0, accelIndex := none, lastMag := none
                history := [], live := false, staleTimer := none, holdTimer := none, set := t.mtm.set, ring := []
                nextSeq := 0 }
    ∧ t.settingsDefault
    ∧ t.srt = { table := routeDefaults, unmatched := 0, defaultRoute := true, holding := List.replicate 54 0
                overrideEntry := none }
    ∧ t.rqh = { queue := [], inProgress := none, phaseCopy := .idle, takenIn := .idle }
    ∧ t.lki = { rx := .hunting, linkErrors := 0, regime := .attended, silenceTimeout := 30, silenceTimer := some 3000
                notice := none, stream := [], samples := [], sending := none
                ports := ⟨⟨.hunting, 0, none⟩, ⟨.hunting, 0, none⟩, ⟨.hunting, 0, none⟩, ⟨.hunting, 0, none⟩⟩ }
    ∧ (∀ e : Event, t.ntu.isLatched e = decide (e = .powerOn)) ∧ t.ntu.globalEnable = false ∧ t.ntu.holdOff = none
    ∧ t.ntu.table.length = 32
    ∧ (∀ (k : Nat) (e : EventEntry), t.ntu.table[k]? = some e →
        e.notified = false ∧ e.enable = false ∧ e.level = (hardLevel k).getD 0 ∧ e.live = t.liveOf k)
    ∧ (pins = Pins.inactive → t = State.reset.setPending s.pending)

/-! ### The link -/

/-- R96, R98, R150, R152, R163 to R165: a valid REQUEST frame restarts the silence timer and restores the regime in every case,
and a regime restored recomputes the target at LMC. Its request stands behind all others, and RQH takes the head of its queue in
the same event where it may: a first request, a RESTART too, is taken at once. At a full request queue it is answered BUSY in the
order of arrival, and with the busy list full as well the frame counts as a link error; no request is then admitted. -/
def Obligations.RequestsAreAdmitted : Prop :=
  (∀ (f : WireFrame) (s : State), uplinkValid f = true → s.rqh.queue.length < 8 →
      ∃ t, exec (.requestFrameReceived f) s = .next t
        ∧ t.rqh.waiting = s.rqh.waiting ++ [requestOf f.body] ∧ t.rqh.phaseCopy = s.rqh.phaseCopy
        ∧ (t.rqh.inProgress = none → t.headWaits) ∧ (s.rqh.inProgress.isSome = true → t.rqh.inProgress = s.rqh.inProgress)
        ∧ (s.rqh.inProgress = none → t.rqh.inProgress.isSome = true → t.rqh.takenIn = s.rqh.phaseCopy)
        ∧ (s.rqh.inProgress = none → s.rqh.queue = [] → s.lki.stream = [] →
            t.rqh.inProgress = some (requestOf f.body) ∧ t.rqh.queue = [])
        ∧ t.lki.rx = .hunting ∧ t.lki.regime = .attended
        ∧ t.lki.silenceTimer = (if s.lki.silenceTimeout = 0 then s.lki.silenceTimer else some (s.lki.silenceTimeout * 100))
        ∧ t.lki.linkErrors = s.lki.linkErrors ∧ t.lki.silenceTimeout = s.lki.silenceTimeout ∧ t.lki.ports = s.lki.ports
        ∧ t.lki.replyTrail = s.lki.replyTrail
        ∧ (s.lki.regime = .unattended → t.ppc = { s.ppc with regime := .attended }
            ∧ ({ s.lmc with regime := .attended } : Lmc).Recomputed t.lmc ∧ FaultFollows s t)
        ∧ (s.lki.regime = .attended → t.ppc = s.ppc ∧ t.lmc = s.lmc ∧ t.ntu = s.ntu)
        ∧ s.ntu.onlyEvents lightConditions t.ntu ∧ t.srt = s.srt ∧ t.mtm = s.mtm)
  ∧ (∀ (f : WireFrame) (s : State), uplinkValid f = true → 8 ≤ s.rqh.queue.length → s.ntu.table.length = 32 →
      ∃ t, exec (.requestFrameReceived f) s = .next t ∧ t.rqh.waiting = s.rqh.waiting ∧ t.lki.regime = .attended
        ∧ t.lki.rx = .hunting ∧ t.lki.silenceTimeout = s.lki.silenceTimeout
        ∧ t.lki.silenceTimer = (if s.lki.silenceTimeout = 0 then s.lki.silenceTimer else some (s.lki.silenceTimeout * 100))
        ∧ (s.lki.regime = .unattended → t.ppc = { s.ppc with regime := .attended }
            ∧ ({ s.lmc with regime := .attended } : Lmc).Recomputed t.lmc ∧ FaultFollows s t)
        ∧ (s.lki.regime = .attended → t.ppc = s.ppc ∧ t.lmc = s.lmc)
        ∧ (s.lki.busyCount < 8 → t.lki.linkErrors = s.lki.linkErrors
            ∧ t.lki.replyTrail = s.lki.replyTrail ++ [.reply { tag := (requestOf f.body).tag, status := .busy, payload := [] }]
            ∧ (t.rqh.inProgress = none → t.headWaits))
        ∧ (8 ≤ s.lki.busyCount → t.lki.replyTrail = s.lki.replyTrail
            ∧ t.lki.linkErrors = (if s.lki.linkErrors < 65535 then s.lki.linkErrors + 1 else s.lki.linkErrors)
            ∧ Occurred s t .linkError)
        ∧ s.ntu.onlyEvents (.linkError :: lightConditions) t.ntu
        ∧ (s.lki.busyCount < 8 → s.ntu.onlyEvents lightConditions t.ntu)
        ∧ t.srt = s.srt ∧ t.mtm = s.mtm ∧ t.lki.ports = s.lki.ports)

/-- R164: a frame that fails a check, and a gap inside a frame, count one link error, raise LINK_ERROR, whose NOTICE is as R141
says, and change nothing else but the receiver; the silence timer is not restarted. R169, R170: the start of a frame, a bad
frame or a gap at a field port, and the end of a PASS change their receiver, counter or buffer and nothing else; a bad frame
at a field port raises no event. -/
def Obligations.FrameErrorsAreCounted : Prop :=
  (∀ (i : Instr) (s : State), s.ntu.table.length = 32 →
      ((∃ f, i = .uplinkFrameDiscarded f ∧ uplinkValid f = false) ∨ i = .uplinkByteGap ∧ s.lki.rx = .inFrame) →
        ∃ t, exec i s = .next t ∧ Occurred s t .linkError ∧ s.ntu.onlyEvents [.linkError] t.ntu ∧ Noticed s t
          ∧ ({ s.lki with rx := .hunting
                          linkErrors := if s.lki.linkErrors < 65535 then s.lki.linkErrors + 1 else s.lki.linkErrors }).onlyNotice t.lki
          ∧ t.srt = s.srt ∧ t.rqh = s.rqh ∧ t.ppc = s.ppc ∧ t.lmc = s.lmc ∧ t.mtm = s.mtm ∧ t.pending = s.pending)
  ∧ (∀ (p : PortId) (s : State),
      (exec .uplinkFrameStart s = .next (s.setLki { s.lki with rx := .inFrame }))
      ∧ (∃ t, exec (.portFrameStart p) s = .next t ∧ OnlyPort s t p fun x => { x with rx := .inFrame })
      ∧ (∃ t, exec (.passSendComplete p) s = .next t ∧ OnlyPort s t p fun x => { x with buffer := none })
      ∧ (∀ f, portFrameGood f = false → ∃ t, exec (.badSampleFrame p f) s = .next t ∧ OnlyPort s t p fun x =>
          { x with rx := .hunting, errors := if x.errors < 65535 then x.errors + 1 else x.errors })
      ∧ ((s.lki.ports.get p).rx = .inFrame → ∃ t, exec (.portByteGap p) s = .next t ∧ OnlyPort s t p fun x =>
          { x with rx := .hunting, errors := if x.errors < 65535 then x.errors + 1 else x.errors }))

/-- R124, R152, R166: at the end of a frame the transmitter takes the NOTICE, else the oldest reply, else the oldest sample; then
RQH takes its head where no request is in progress, the reply queue has room and, for a RESTART, no reply waits, and examines its
phase copy as it takes it. -/
def Obligations.TransmitterTakesInOrder : Prop :=
  ∀ s : State, s.lki.sending.isSome = true →
    ∃ t, exec .transmitComplete s = .next t
      ∧ t.lki = (match s.lki.notice, s.lki.stream, s.lki.samples with
          | some n, _, _ => { s.lki with sending := some (.notice n), notice := none }
          | none, x :: rest, _ => { s.lki with sending := some x.frame, stream := rest }
          | none, [], x :: rest => { s.lki with sending := some (.sample x), samples := rest }
          | none, [], [] => { s.lki with sending := none })
      ∧ t.rqh = (match s.rqh.inProgress, s.rqh.queue with
          | none, r :: rest =>
            if t.lki.replyCount < 8 ∧ (r.code = 0x7F#8 → t.lki.stream = []) then
              { s.rqh with queue := rest, inProgress := some r, takenIn := s.rqh.phaseCopy }
            else s.rqh
          | _, _ => s.rqh)
      ∧ t.rqh.waiting = s.rqh.waiting
      ∧ t.srt = s.srt ∧ t.ppc = s.ppc ∧ t.lmc = s.lmc ∧ t.mtm = s.mtm ∧ t.ntu = s.ntu ∧ t.pending = s.pending
      ∧ t.rqh.phaseCopy = s.rqh.phaseCopy

/-- R96, R98, R168: the silence timer runs out: UNATTENDED at LKI, PPC and LMC, and O is cut to C_unatt with CEILING_CUT. -/
def Obligations.SilenceMakesUnattended : Prop :=
  ∀ s : State, s.lki.silenceTimer.isSome = true → s.ntu.table.length = 32 →
    ∃ t, exec .silenceTimeoutExpiry s = .next t
      ∧ ({ s.lki with silenceTimer := none, regime := .unattended }).onlyNotice t.lki
      ∧ t.ppc = { s.ppc with regime := .unattended } ∧ ({ s.lmc with regime := .unattended }).onlyTarget t.lmc
      ∧ t.lmc.out = min s.lmc.out s.lmc.set.cUnatt
      ∧ ({ s.lmc with regime := .unattended, out := t.lmc.out } : Lmc).Recomputed t.lmc ∧ FaultFollows s t
      ∧ t.lmc.target ≤ s.lmc.set.cUnatt ∧ t.lmc.target ≤ s.lmc.cPower
      ∧ (s.lmc.set.cUnatt < s.lmc.out → Occurred s t .ceilingCut)
      ∧ s.ntu.onlyEvents (.ceilingCut :: lightConditions) t.ntu
      ∧ t.srt = s.srt ∧ t.rqh = s.rqh ∧ t.mtm = s.mtm ∧ t.pending = s.pending

/-! ### Samples -/

/-- R2 to R5, R13: a matched sample is placed or withheld as the action in force, the phase and the room decide, exactly one
counter of its entry counts, and only its entry's phase advances. That an idle transmitter takes the sample, and not a NOTICE
that the tap delivery raises, is the model's choice (log entry 6): R6 leaves the two unordered. Here and below, what a sample
does that finds a RESTART taken in IDLE in progress is said by RestartRestoresAndKeeps. -/
def Obligations.MatchedSampleIsCounted : Prop :=
  ∀ (p : PortId) (f : WireFrame) (s : State) (i : Nat) (e : RouteEntry),
    portFrameGood f = true → s.restartGranted = false → s.srt.entryFor (sampleOf f.body).source i e →
    ∃ t, exec (.sampleFrameReceived p f) s = .next t
      ∧ t.srt.table = s.srt.table.set i { e with
          passed := if s.srt.offers i e && decide (s.lki.samples.length < 32) then satInc e.passed else e.passed
          withheld := if s.srt.offers i e && decide (s.lki.samples.length < 32) then e.withheld else satInc e.withheld
          phase := if s.srt.overrideEntry ≠ some i ∧ e.action = .decimate then
              (if e.phase + 1 < e.factor then e.phase + 1 else 0) else e.phase }
      ∧ t.srt.unmatched = s.srt.unmatched ∧ t.srt.defaultRoute = s.srt.defaultRoute ∧ t.srt.holding = s.srt.holding
      ∧ (s.lki.sending.isSome = true → t.lki.samples = s.lki.samples ++
          (if s.srt.offers i e && decide (s.lki.samples.length < 32) then [sampleOf f.body] else []))
      ∧ (s.lki.sending = none → s.queuesSound → s.srt.offers i e = true → t.lki.sending = some (.sample (sampleOf f.body)))
      ∧ (s.ntu.table.length = 32 → s.srt.offers i e = true → 32 ≤ s.lki.samples.length →
          Occurred s t .sampleOverflow)
      ∧ t.lki.ports = s.lki.ports.set p { s.lki.ports.get p with rx := .hunting }
      ∧ t.rqh.waiting = s.rqh.waiting ∧ t.lki.replyTrail = s.lki.replyTrail ∧ t.lki.linkErrors = s.lki.linkErrors
      ∧ t.lki.regime = s.lki.regime ∧ t.pending = s.pending

/-- R7: an unmatched sample is placed in default-route mode with room, and counted otherwise; no engine receives it. -/
def Obligations.UnmatchedSampleIsCounted : Prop :=
  ∀ (p : PortId) (f : WireFrame) (s : State),
    portFrameGood f = true → s.restartGranted = false → s.srt.noEntry (sampleOf f.body).source →
    ∃ t, exec (.sampleFrameReceived p f) s = .next t
      ∧ t.srt = { s.srt with unmatched :=
          if s.srt.defaultRoute && decide (s.lki.samples.length < 32) then s.srt.unmatched else satInc s.srt.unmatched }
      ∧ (s.lki.sending.isSome = true → t.lki.samples = s.lki.samples ++
          (if s.srt.defaultRoute && decide (s.lki.samples.length < 32) then [sampleOf f.body] else []))
      ∧ (s.lki.sending = none → s.queuesSound → s.srt.defaultRoute = true →
          t.lki.sending = some (.sample (sampleOf f.body)))
      ∧ (s.srt.defaultRoute = true → 32 ≤ s.lki.samples.length → s.ntu.table.length = 32 →
          Occurred s t .sampleOverflow ∧ s.ntu.onlyEvents [.sampleOverflow] t.ntu)
      ∧ (s.srt.defaultRoute = false ∨ s.lki.samples.length < 32 → t.ntu = s.ntu)
      ∧ t.ppc = s.ppc ∧ t.lmc = s.lmc ∧ t.mtm = s.mtm ∧ t.rqh.waiting = s.rqh.waiting ∧ t.pending = s.pending

/-- R6, R27, R50, R51, R58, R59, R70, R77 to R79, R81, R97, R107: the sample of the kind a tap role takes reaches that engine.
Of the other engines only what follows from its event changes: brace, the freeze, the selection and the target record; their
samples, light roles, E, Lg and F stay. A sample of another kind changes no engine and raises TAP_MISMATCH. A GAUGE sample ends
stale, a BRIDGE sample delivers low and the fault flag as the conditions BRIDGE_LOW and BRIDGE_FAULT (read as the edges of the
fields, log entry 11), and a C_power that either changes reaches LMC. A LIGHT sample during a freeze refreshes the role alone,
re-evaluates valid, and returns the mode from FAIL to CURVE with the target recomputed where valid turns yes. -/
def Obligations.TapDeliversToOneEngine : Prop :=
  ∀ (p : PortId) (f : WireFrame) (s : State) (i : Nat) (e : RouteEntry),
    portFrameGood f = true → s.restartGranted = false → s.srt.entryFor (sampleOf f.body).source i e →
    ∃ t, exec (.sampleFrameReceived p f) s = .next t
      ∧ (e.tap = .noTap → t.ppc = s.ppc ∧ t.lmc = s.lmc ∧ t.mtm = s.mtm)
      ∧ (e.tap ≠ .noTap → (sampleOf f.body).kindCode ≠ e.tap.kind →
          t.ppc = s.ppc ∧ t.lmc = s.lmc ∧ t.mtm = s.mtm ∧ (s.ntu.table.length = 32 → Occurred s t .tapMismatch))
      ∧ (e.tap = .accel → (sampleOf f.body).kindCode = 1 →
          t.mtm.lastMag = some (Accel.ofPayload (sampleOf f.body).payload).magnitude ∧ t.mtm.accelIndex = some i
            ∧ t.mtm.live = true ∧ t.mtm.staleTimer = some s.mtm.set.accelStale ∧ t.mtm.set = s.mtm.set ∧ OnlyBraced s t)
      ∧ (∀ x, e.tap = gaugeRole x → (sampleOf f.body).kindCode = 3 →
          t.mtm = s.mtm ∧ s.lmc.onlyTarget t.lmc ∧ ((s.ppc.pack x).state = .empty → t.ppc = s.ppc ∧ t.lmc = s.lmc)
            ∧ ((s.ppc.pack x).state ≠ .empty →
                (t.ppc.pack x).sample = some (GaugeSample.ofPayload (sampleOf f.body).payload)
                  ∧ (t.ppc.pack x).age = some 0 ∧ (t.ppc.pack x).stale = false)
            ∧ s.ppc.onlySelection t.ppc ∧ (t.ppc.pack (otherSlot x)).sample = (s.ppc.pack (otherSlot x)).sample
            ∧ CeilingFollows s t
            ∧ ((s.ppc.pack x).state ≠ .empty → ConditionFollows s t (.gaugeStale x) false)
            ∧ (s.ppc.safe → (s.ppc.pack (otherSlot x)).onlySelected (t.ppc.pack (otherSlot x))))
      ∧ (e.tap = .bridge → (sampleOf f.body).kindCode = 4 →
          t.mtm = s.mtm ∧ s.lmc.onlyTarget t.lmc ∧ (s.ppc.bridge.fitted = false → t.ppc = s.ppc ∧ t.lmc = s.lmc)
            ∧ (s.ppc.bridge.fitted = true →
                (let g := BridgeSample.ofPayload (sampleOf f.body).payload
                 let charge := u16 (sampleOf f.body).payload 2
                 let w := swapWindow charge s.ppc.bridgeSet.reserve (s.ppc.loadAt (min s.lmc.out s.ppc.budget.cPower))
                 t.ppc.bridge.last = some g ∧ (∀ x, (t.ppc.pack x).sample = (s.ppc.pack x).sample)
                  ∧ ({ s.ppc with bridge := { s.ppc.bridge with last := some g, low := t.ppc.bridge.low } }).onlySelection t.ppc
                  ∧ (t.ppc.bridge.low = true ↔ charge ≤ s.ppc.bridgeSet.compare)
                  ∧ ConditionFollows s t .bridgeLow t.ppc.bridge.low
                  ∧ ConditionFollows s t .bridgeFault ((u8 (sampleOf f.body).payload 4).testBit 0) ∧ CeilingFollows s t
                  ∧ (s.ppc.bridge.alone = false ∨ s.ppc.bridge.exhausted = true →
                      t.ppc = { s.ppc with bridge := { s.ppc.bridge with last := some g, low := t.ppc.bridge.low } })
                  ∧ (s.ppc.bridge.alone = true → s.ppc.bridge.exhausted = false → s.ppc.safe →
                      t.ppc.bridge.holds w
                        ∧ t.ppc = { s.ppc with
                            bridge := { s.ppc.bridge with last := some g, low := t.ppc.bridge.low
                                                          window := t.ppc.bridge.window
                                                          exhausted := t.ppc.bridge.exhausted }
                            budget := t.ppc.budget }
                        ∧ (w = 0 → t.ppc.budget.cPower = 0
                            ∧ (s.ntu.table.length = 32 → Occurred s t .bridgeExhausted)
                            ∧ (s.underCeiling → t.lmc.out = 0))
                        ∧ (0 < w → t.ppc.budget = s.ppc.budget)))))
      ∧ (∀ r, e.tap = lightTap r → (sampleOf f.body).kindCode = 2 →
          t.ppc = s.ppc ∧ t.mtm = s.mtm ∧ (t.lmc.role r).live = true
            ∧ (t.lmc.role r).timer = some s.lmc.set.lightStale ∧ t.lmc.out = s.lmc.out
            ∧ (∀ o, o ≠ r → t.lmc.role o = s.lmc.role o) ∧ t.lmc.set = s.lmc.set
            ∧ FaultFollows s t
            ∧ (s.lmc.freeze = true → (t.lmc.role r).lux = (s.lmc.role r).lux ∧ t.lmc.e = s.lmc.e ∧ t.lmc.lg = s.lmc.lg
                ∧ t.lmc.f = s.lmc.f ∧ t.lmc.freeze = true ∧ t.lmc.valid = s.lmc.f.isSome
                ∧ (s.lmc.mode = .fail → s.lmc.valid = false → s.lmc.f.isSome = true → t.lmc.mode = .curve ∧ Retargeted s t)
                ∧ (s.lmc.mode = .forced ∨ s.lmc.valid = s.lmc.f.isSome → t.lmc.mode = s.lmc.mode ∧ TargetKept s t)))

/-- R69, R70, R73 to R75, R77, R78, R81, R89 to R92, R96: a LIGHT sample outside a freeze is converted, combined, filtered, and
handed to the target stage: valid is yes, the mode leaves FAIL, and the target is recomputed from the curve at F. -/
def Obligations.LightSampleIsMeasured : Prop :=
  ∀ (p : PortId) (f : WireFrame) (s : State) (i : Nat) (e : RouteEntry) (r : LightRole),
    Tapped s f i e (lightTap r) → s.lmc.freeze = false →
    ∃ t, exec (.sampleFrameReceived p f) s = .next t
      ∧ (let k := (s.lmc.role r).gains
         let range := u8 (sampleOf f.body).payload 2
         let gain := if range = 0 then k.k0 else if range = 1 then k.k1 else if range = 2 then k.k2 else k.k3
         let count := u16 (sampleOf f.body).payload 0
         let l := if count = 65535 then 200000 else min (count * gain / 256) 200000
         (t.lmc.role r).lux = some l
           ∧ ∀ o, o ≠ r → t.lmc.role o = s.lmc.role o
              ∧ (let own := if r = .top then l * s.lmc.set.wTop / 16 else l
                 let term := fun v : Nat => if o = .top then v * s.lmc.set.wTop / 16 else v
                 t.lmc.e = some (if (s.lmc.role o).live then
                    (match (s.lmc.role o).lux with
                     | some v => max own (term v)
                     | none => own) else own)))
      ∧ (∀ v, t.lmc.e = some v → ∃ lg, t.lmc.lg = some lg ∧ (v = 0 → lg = 0)
          ∧ (∀ k, 2 ^ k ≤ v → v < 2 ^ (k + 1) → lg = 256 * k + (if 8 ≤ k then v / 2 ^ (k - 8) else v * 2 ^ (8 - k)) % 256)
          ∧ (s.lmc.f = none → t.lmc.f = some lg)
          ∧ ∀ g, s.lmc.f = some g →
              t.lmc.f = some (if g + s.lmc.set.deadBand < lg then g + max ((lg - g) / 2 ^ s.lmc.set.sUp) 1
                else if lg + s.lmc.set.deadBand < g then g - max ((g - lg) / 2 ^ s.lmc.set.sDown) 1 else g))
      ∧ t.lmc.valid = true ∧ (s.lmc.mode = .forced → t.lmc.mode = .forced)
      ∧ (s.lmc.mode ≠ .forced → s.lmc.valid = false → t.lmc.mode = .curve) ∧ t.lmc.aimed
      ∧ (s.lmc.valid = true → t.lmc.mode = s.lmc.mode) ∧ Retargeted s t
      ∧ t.lmc.set = s.lmc.set ∧ t.lmc.bias = s.lmc.bias ∧ t.lmc.forced = s.lmc.forced ∧ t.lmc.cPower = s.lmc.cPower
      ∧ t.lmc.regime = s.lmc.regime ∧ t.lmc.stepTimer = s.lmc.stepTimer ∧ t.lmc.curve.points = s.lmc.curve.points

/-- R28: a gauge sample in QUALIFYING or SEATED is tested; Q good samples make the pack STANDBY, a bad one resets the count, a
fault flag makes it FAULT. -/
def Obligations.GaugeSampleQualifies : Prop :=
  ∀ (p : PortId) (f : WireFrame) (s : State) (i : Nat) (e : RouteEntry) (x : Slot),
    Tapped s f i e (gaugeRole x) → s.ntu.table.length = 32 →
    (s.ppc.pack x).state = .seated ∨ (s.ppc.pack x).state = .qualifying →
    ∃ t, exec (.sampleFrameReceived p f) s = .next t
      ∧ (let g := GaugeSample.ofPayload (sampleOf f.body).payload
         let k := s.ppc.pack x
         let k' := t.ppc.pack x
         let good := s.ppc.profile.qvMin ≤ g.voltage ∧ g.voltage ≤ s.ppc.profile.qvMax ∧ s.ppc.profile.tLow ≤ g.temperature
           ∧ g.temperature < s.ppc.profile.tCut ∧ g.fault = false
         k'.staleTimer = (if g.fault then none else some s.ppc.profile.gaugeStale)
           ∧ (good → k.qual + 1 < s.ppc.profile.qualNeeded → k'.state = .qualifying ∧ k'.qual = k.qual + 1
                ∧ k'.qualTimer = (if k.state = .seated then some s.ppc.profile.qualTimeout else k.qualTimer))
           ∧ (good → s.ppc.profile.qualNeeded ≤ k.qual + 1 → (k'.state = .standby ∨ k'.state = .online)
                ∧ k'.qualTimer = none ∧ k'.allowance = min s.ppc.profile.pmaxPack
                    (g.voltage * (if g.temperature < s.ppc.profile.t1 then s.ppc.profile.imax0
                      else if g.temperature < s.ppc.profile.t2 then s.ppc.profile.imax1
                      else if g.temperature < s.ppc.profile.t3 then s.ppc.profile.imax2 else s.ppc.profile.imax3) / 1000)
                ∧ Occurred s t (.packReady x))
           ∧ (¬good → g.fault = false → k'.state = .qualifying ∧ k'.qual = 0)
           ∧ (g.fault = true → k'.state = .fault ∧ k'.faultCause = some .gaugeFault ∧ k'.qual = 0 ∧ k'.qualTimer = none
                ∧ k'.switch = false ∧ k'.lock = (if s.mtm.phase = .idle then false else k.lock)
                ∧ (s.mtm.phase ≠ .idle → k'.lockPending = true) ∧ Occurred s t (.packFault x)))

/-- R30, R31, R33 step 2, R35, R41: a gauge sample in STANDBY or ONLINE that shows a fault condition takes the pack to FAULT with
the first cause of the table, and a pack that was ONLINE hands over by a transfer; another recomputes the allowance and, for the
ONLINE pack, is its rotation check; in RELEASING a current at or below RELEASE_MA confirms the release. -/
def Obligations.GaugeSampleFaultsOrConfirms : Prop :=
  ∀ (p : PortId) (f : WireFrame) (s : State) (i : Nat) (e : RouteEntry) (x : Slot),
    Tapped s f i e (gaugeRole x) → s.ntu.table.length = 32 →
    ∃ t, exec (.sampleFrameReceived p f) s = .next t
      ∧ (let g := GaugeSample.ofPayload (sampleOf f.body).payload
         let k := s.ppc.pack x
         let k' := t.ppc.pack x
         ((k.state = .standby ∨ k.state = .online) →
            g.fault = true ∨ s.ppc.profile.tCut ≤ g.temperature ∨ g.voltage < s.ppc.profile.vCut →
            k'.state = .fault ∧ k'.switch = false ∧ k'.staleTimer = none
              ∧ k'.faultCause = some (if g.fault then .gaugeFault else if s.ppc.profile.tCut ≤ g.temperature then .overtemp
                  else .undervolt)
              ∧ k'.lock = (if s.mtm.phase = .idle then false else k.lock)
              ∧ (s.mtm.phase ≠ .idle → k'.lockPending = true) ∧ Occurred s t (.packFault x)
              ∧ (s.ppc.safe → k.state = .online → t.ppc.settleTimer = some 20
                  ∧ (s.ppc.bridge.fitted = true → t.ppc.bridge.switch = true)
                  ∧ t.ppc.pack (otherSlot x) = (if (s.ppc.pack (otherSlot x)).state = .standby
                      then { s.ppc.pack (otherSlot x) with state := .online, switch := true } else s.ppc.pack (otherSlot x))))
          ∧ (k.state = .standby ∨ k.state = .online → g.fault = false → g.temperature < s.ppc.profile.tCut →
              s.ppc.profile.vCut ≤ g.voltage →
              (let other := s.ppc.pack (otherSlot x)
               let rotates := g.energy < s.ppc.profile.rotateMwh ∧ other.state = .standby
                 ∧ ∃ o, other.sample = some o ∧ g.energy + s.ppc.profile.rotateGap < o.energy
               k'.allowance = min s.ppc.profile.pmaxPack
                  (g.voltage * (if g.temperature < s.ppc.profile.t1 then s.ppc.profile.imax0
                    else if g.temperature < s.ppc.profile.t2 then s.ppc.profile.imax1
                    else if g.temperature < s.ppc.profile.t3 then s.ppc.profile.imax2 else s.ppc.profile.imax3) / 1000)
                ∧ (k.state = .online → s.ppc.safe → rotates →
                    k'.state = .standby ∧ k'.switch = false
                      ∧ t.ppc.pack (otherSlot x) = { other with state := .online, switch := true }
                      ∧ t.ppc.settleTimer = some 20 ∧ (s.ppc.bridge.fitted = true → t.ppc.bridge.switch = true))
                ∧ (k.state = .standby ∨ s.ppc.safe ∧ ¬rotates →
                    k'.state = k.state ∧ k'.switch = k.switch ∧ t.ppc.pack (otherSlot x) = other
                      ∧ t.ppc.swDc = s.ppc.swDc ∧ t.ppc.bridge.switch = s.ppc.bridge.switch
                      ∧ t.ppc.settleTimer = s.ppc.settleTimer)))
          ∧ (k.state = .online → t.ppc.settled) ∧ AloneFollows s t
          ∧ (k.state = .releasing → k.lockPending = false → g.current ≤ s.ppc.profile.releaseMa →
              k'.confirmTimer = none
                ∧ (s.mtm.phase = .idle → k'.state = .unlocked ∧ k'.lock = false ∧ k'.staleTimer = none
                    ∧ k'.holdTimer = some s.ppc.profile.unlockHold ∧ Occurred s t .swapReady)
                ∧ (s.mtm.phase ≠ .idle → k'.state = .releasing ∧ k'.lockPending = true ∧ k'.lock = k.lock))
          ∧ (k.state = .releasing → (s.ppc.profile.releaseMa : Int) < g.current →
              k'.state = .releasing ∧ k'.confirmTimer = k.confirmTimer ∧ k'.lock = k.lock))

/-- R54, R79, R97, R107, R108, R111, R112, R114, R117, R126, R127, R131: an ACCEL sample in IDLE or HOLD opens a SHOCK record,
counts a low sample, opens a fall, or ends the low run; of PPC and LMC it changes brace, SW_BR, the freeze and the target record
alone; a budget that is settled and delivered stays. The low-run and mid-run counts after an opening in HOLD are those of an
opening in IDLE by inference (log entry 25, DEDUCED). -/
def Obligations.AccelSampleOpensARecord : Prop :=
  ∀ (p : PortId) (f : WireFrame) (s : State) (i : Nat) (e : RouteEntry),
    Tapped s f i e .accel → s.mtm.sound → s.mtm.phase = .idle ∨ s.mtm.phase = .hold → s.ntu.table.length = 32 →
    ∃ t, exec (.sampleFrameReceived p f) s = .next t
      ∧ (let a := Accel.ofPayload (sampleOf f.body).payload
         let m := max (max a.x.natAbs a.y.natAbs) a.z.natAbs
           + 3 * (a.x.natAbs + a.y.natAbs + a.z.natAbs - max (max a.x.natAbs a.y.natAbs) a.z.natAbs) / 8
         let kept := if s.mtm.ring.length < 8 then s.mtm.ring else s.mtm.ring.drop 1
         let source := if s.ppc.swDc then Source.dc else if s.ppc.packA.switch then .a else if s.ppc.packB.switch then .b
           else if s.ppc.bridge.switch then .bridge else .none
         t.mtm.lastMag = some m
           ∧ t.mtm.history = (if s.mtm.history.length < 8 then s.mtm.history else s.mtm.history.drop 1) ++ [m]
           ∧ (s.mtm.set.impactThresh ≤ m → t.mtm.phase = .impact ∧ t.mtm.lowRun = 0 ∧ t.mtm.holdTimer = none
                ∧ t.mtm.nextSeq = (s.mtm.nextSeq + 1) % 65536
                ∧ ∃ r, t.mtm.ring = kept ++ [r] ∧ r.seq = s.mtm.nextSeq ∧ r.isOpen = true ∧ r.kind = .shock
                    ∧ r.fallLength = 0 ∧ r.bounces = 0 ∧ r.outcome = .unsettled ∧ r.source = source
                    ∧ r.dislodgedA = false ∧ r.dislodgedB = false ∧ (r.swapInProgress = true ↔ s.ppc.swapInProgress)
                    ∧ (∃ q, r.peak = some q ∧ PeakOf a m q)
                    ∧ r.lead = some s.mtm.history.length ∧ r.capture = s.mtm.history ++ [m])
           ∧ (m < s.mtm.set.impactThresh → m < s.mtm.set.ffThresh → s.mtm.set.ffCount ≤ min (s.mtm.lowRun + 1) 255 →
                t.mtm.phase = .falling ∧ t.mtm.lowRun = 0 ∧ t.mtm.midRun = 0 ∧ t.mtm.holdTimer = none
                ∧ t.mtm.nextSeq = (s.mtm.nextSeq + 1) % 65536 ∧ Occurred s t .fallStart
                ∧ ∃ r, t.mtm.ring = kept ++ [r] ∧ r.seq = s.mtm.nextSeq ∧ r.isOpen = true ∧ r.kind = .fallAborted
                    ∧ r.fallLength = s.mtm.set.ffCount ∧ r.bounces = 0 ∧ r.outcome = .unsettled ∧ r.source = source
                    ∧ r.dislodgedA = false ∧ r.dislodgedB = false ∧ (r.swapInProgress = true ↔ s.ppc.swapInProgress)
                    ∧ r.peak = none ∧ r.lead = none ∧ r.capture = [])
           ∧ (m < s.mtm.set.impactThresh → m < s.mtm.set.ffThresh → min (s.mtm.lowRun + 1) 255 < s.mtm.set.ffCount →
                s.mtm.lowRun ≤ 255 → t.mtm.phase = s.mtm.phase ∧ t.mtm.lowRun = min (s.mtm.lowRun + 1) 255
                ∧ t.mtm.ring = s.mtm.ring ∧ t.mtm.holdTimer = s.mtm.holdTimer)
           ∧ (m < s.mtm.set.impactThresh → s.mtm.set.ffThresh ≤ m →
                t.mtm.phase = s.mtm.phase ∧ t.mtm.lowRun = 0 ∧ t.mtm.ring = s.mtm.ring ∧ t.mtm.holdTimer = s.mtm.holdTimer)
           ∧ (s.mtm.phase = .idle → t.mtm.phase ≠ .idle → t.ppc.brace = true ∧ t.lmc.freeze = true
                ∧ t.rqh.phaseCopy = t.mtm.phase ∧ t.srt.overrideEntry = some i ∧ t.park = true
                ∧ (s.rqh.inProgress.isSome = true → t.rqh.takenIn = s.rqh.takenIn)
                ∧ (s.ppc.bridge.fitted = true → t.ppc.bridge.switch = true)
                ∧ (s.ppc.bridge.fitted = false → t.ppc.bridge.switch = s.ppc.bridge.switch))
           ∧ OnlyBraced s t ∧ AloneFollows s t
           ∧ (s.underCeiling → CeilingDelivered { s.lmc with freeze := t.lmc.freeze } s t)
           ∧ (s.ppc.safe → t.ppc.bridge = { s.ppc.bridge with switch := t.ppc.bridge.switch }
                ∧ (s.ppc.settled → s.underCeiling → t.ppc.budget = s.ppc.budget))
           ∧ (t.mtm.phase = .idle ∨ s.mtm.phase ≠ .idle → t.ppc = s.ppc ∧ t.lmc = s.lmc
                ∧ t.srt.overrideEntry = s.srt.overrideEntry))

/-- R113 to R116, R127, R128: an ACCEL sample while a record is open lands, catches, counts or aborts a fall, makes or ends an
impact, bounces, or settles, and its magnitude enters the history of at most eight, the oldest leaving (R106, R107); PPC, LMC
and the override stay. That the settle count is kept exactly by a record with bounces is by inference (log entry 21). -/
def Obligations.AccelSampleInARecord : Prop :=
  ∀ (p : PortId) (f : WireFrame) (s : State) (i : Nat) (e : RouteEntry) (r : DropRecord),
    Tapped s f i e .accel → s.mtm.sound → s.mtm.phase.recording = true → s.mtm.ring.getLast? = some r → s.ntu.table.length = 32 →
    ∃ t, exec (.sampleFrameReceived p f) s = .next t
      ∧ (let a := Accel.ofPayload (sampleOf f.body).payload
         let m := a.magnitude
         let low := m < s.mtm.set.impactThresh
         let long := s.mtm.set.ffMax ≤ heldAt r.fallLength 65535
         let mid := heldAt s.mtm.midRun 255
         let settled := if r.bounces = 0 then 0 else s.mtm.settled
         ∃ r', t.mtm.ring = s.mtm.ring.dropLast ++ [r'] ∧ r'.seq = r.seq ∧ r'.source = r.source
           ∧ r'.swapInProgress = r.swapInProgress ∧ r'.dislodgedA = r.dislodgedA ∧ r'.dislodgedB = r.dislodgedB
           ∧ (s.mtm.phase = .falling → r'.fallLength = heldAt r.fallLength 65535)
           ∧ (s.mtm.phase ≠ .falling → r'.fallLength = r.fallLength ∧ r'.kind = r.kind)
           ∧ (s.mtm.phase = .falling → s.mtm.set.impactThresh ≤ m →
                t.mtm.phase = .impact ∧ r'.kind = .fallLanded ∧ r'.isOpen = true
                ∧ (r.peak = none → (∃ q, r'.peak = some q ∧ PeakOf a m q) ∧ r'.lead = some s.mtm.history.length
                    ∧ r'.capture = s.mtm.history ++ [m]))
           ∧ (s.mtm.phase = .falling → low → s.mtm.set.ffThresh ≤ m → s.mtm.set.ffCount ≤ mid →
                r'.kind = .fallCaught ∧ SettleTested s.mtm 0 settled m t.mtm r')
           ∧ (s.mtm.phase = .falling → low → m < s.mtm.set.ffThresh ∨ mid < s.mtm.set.ffCount → long →
                t.mtm.phase = .hold ∧ r'.kind = r.kind ∧ r'.isOpen = false ∧ r'.outcome = .unsettled)
           ∧ (s.mtm.phase = .falling → low → m < s.mtm.set.ffThresh ∨ mid < s.mtm.set.ffCount → ¬long →
                t.mtm.phase = .falling ∧ r'.kind = r.kind ∧ r'.isOpen = true
                ∧ t.mtm.midRun = (if m < s.mtm.set.ffThresh then 0 else mid))
           ∧ (s.mtm.phase = .impact → s.mtm.set.impactThresh ≤ m → t.mtm.phase = .impact ∧ r'.isOpen = true
                ∧ t.mtm.settled = s.mtm.settled ∧ r'.bounces = r.bounces)
           ∧ (s.mtm.phase = .impact → low → SettleTested s.mtm 0 settled m t.mtm r' ∧ r'.bounces = r.bounces ∧ r'.peak = r.peak)
           ∧ (s.mtm.phase = .settle → s.mtm.set.impactThresh ≤ m → t.mtm.phase = .impact ∧ t.mtm.quiet = 0
                ∧ r'.bounces = min (r.bounces + 1) 15 ∧ r'.isOpen = true ∧ t.mtm.settled = heldAt s.mtm.settled 65535)
           ∧ (s.mtm.phase = .settle → low →
                SettleTested s.mtm s.mtm.quiet s.mtm.settled m t.mtm r' ∧ r'.bounces = r.bounces ∧ r'.peak = r.peak)
           ∧ (s.mtm.set.impactThresh ≤ m → ∀ q, r.peak = some q →
                ∃ q', r'.peak = some q' ∧ (m ≤ q.magnitude → q' = q) ∧ (q.magnitude < m → PeakOf a m q') ∧ r'.lead = r.lead)
           ∧ (t.mtm.phase = .hold → r'.isOpen = false
                ∧ t.mtm.holdTimer = some s.mtm.set.protectHold ∧ t.mtm.lowRun = 0 ∧ t.mtm.midRun = 0 ∧ t.mtm.quiet = 0
                ∧ Occurred s t .dropRecorded)
           ∧ (r.lead.isSome = true → r.capture.length < 16 → r'.capture = r.capture ++ [m])
           ∧ (r.lead.isSome = true → 16 ≤ r.capture.length → r'.capture = r.capture)
           ∧ t.mtm.history = (if s.mtm.history.length < 8 then s.mtm.history else s.mtm.history.drop 1) ++ [m]
           ∧ t.mtm.lastMag = some m ∧ t.ppc = s.ppc ∧ t.lmc = s.lmc ∧ t.srt.overrideEntry = s.srt.overrideEntry
           ∧ s.ntu.onlyEvents [.sampleOverflow, .dropRecorded, .motionBlind] t.ntu)

/-! ### Discrete lines -/

/-- R24: a raw change starts the 16 ms anew at its pin alone; a lever release changes the lever field alone. -/
def Obligations.RawInputsDebounce : Prop :=
  ∀ (x : Slot) (level : Bool) (s : State),
    (∃ t, exec (.rawInputChange (.pres x) level) s = .next t ∧ t = s.setPpc (s.ppc.setPack x { s.ppc.pack x with
        presPin := if (s.ppc.pack x).presPin.raw = level then (s.ppc.pack x).presPin else { raw := level, timer := some 16 } }))
    ∧ (∃ t, exec (.rawInputChange (.lever x) level) s = .next t ∧ t = s.setPpc (s.ppc.setPack x { s.ppc.pack x with
        leverPin := if (s.ppc.pack x).leverPin.raw = level then (s.ppc.pack x).leverPin
          else { raw := level, timer := some 16 } }))
    ∧ ((s.ppc.pack x).lever = true → ∃ t, exec (.leverRelease x) s = .next t
        ∧ t = s.setPpc (s.ppc.setPack x { s.ppc.pack x with lever := false, leverPin := { raw := false, timer := none } }))

/-- R26: seating. -/
def Obligations.SeatingStartsAPack : Prop :=
  ∀ (x : Slot) (s : State), (s.ppc.pack x).presence = false → s.ntu.table.length = 32 →
    ∃ t, exec (.seating x) s = .next t ∧ OnlySlot s t x [.packSeated x] ∧ Occurred s t (.packSeated x)
      ∧ t.ppc.pack x = { s.ppc.pack x with
          state := .seated, presence := true, lock := true, sample := none, age := none, stale := false, qual := 0
          allowance := 0, faultCause := none, lastRefusal := none, staleTimer := some s.ppc.profile.gaugeStale
          presPin := { raw := true, timer := none } }

/-- R44, R129: a presence loss empties the slot and stops its timers; it is a removal from UNLOCKED or FAULT and a loss from
any other state; a loss during a drop is DISLODGED and enters the open record; a carrying pack is replaced, and where the bridge
is left to carry alone BRIDGE_ALONE is raised and the swap window begins (R53, R58). -/
def Obligations.PresenceLossEmptiesASlot : Prop :=
  ∀ (x : Slot) (s : State), (s.ppc.pack x).presence = true → s.ntu.table.length = 32 →
    ∃ t, exec (.presenceLoss x) s = .next t
      ∧ (let k := s.ppc.pack x
         let out := k.state = .unlocked ∨ k.state = .fault
         OnlySlot s (t.setMtm s.mtm) x [.packLost x, .packRemoved x]
           ∧ (∃ cause, t.ppc.pack x = { k with
                state := .empty, presence := false, switch := false, lockPending := false, lossCause := cause
                qualTimer := none, confirmTimer := none, holdTimer := none, staleTimer := none
                presPin := { raw := false, timer := none } }
              ∧ (out → cause = k.lossCause) ∧ (¬out → s.mtm.phase = .idle → cause = some .pulled)
              ∧ (¬out → s.mtm.phase ≠ .idle → cause = some .dislodged))
           ∧ (out → Occurred s t (.packRemoved x)) ∧ (¬out → Occurred s t (.packLost x))
           ∧ (out ∨ s.mtm.phase = .idle → t.mtm = s.mtm)
           ∧ (¬out → s.mtm.phase ≠ .idle → t.mtm = { s.mtm with ring := s.mtm.ring.map fun r =>
                if r.isOpen then (if x = .a then { r with dislodgedA := true } else { r with dislodgedB := true }) else r })
           ∧ (s.ppc.safe → k.switch = true → (s.ppc.bridge.fitted = true → t.ppc.bridge.switch = true)
                ∧ ((s.ppc.pack (otherSlot x)).state = .standby → (t.ppc.pack (otherSlot x)).state = .online
                    ∧ t.ppc.settleTimer = some 20)
                ∧ t.ppc.settled)
           ∧ AloneFollows s t)

/-- R37 to R40, R42, R53, R58: a lever press starts a release, judged in the regime; a refused one raises SWAP_REFUSED, a
completed one SWAP_READY, and a handover closes the bridge and the other pack, or leaves the bridge to carry alone with its swap
window. -/
def Obligations.LeverPressReleases : Prop :=
  ∀ (x : Slot) (s : State), (s.ppc.pack x).lever = false → s.ntu.table.length = 32 →
    ∃ t out, exec (.leverPress x) s = .next t
      ∧ Released (s.setPpc (s.ppc.setPack x { s.ppc.pack x with lever := true, leverPin := { raw := true, timer := none } }))
          t x s.ppc.regime out
      ∧ OnlySlot s t x [.swapRefused, .swapReady] ∧ AloneFollows s t
      ∧ (∀ r, out = .refused r → Occurred s t .swapRefused)
      ∧ (out = .done → (t.ppc.pack x).state = .unlocked → Occurred s t .swapReady)
      ∧ (out = .done → (s.ppc.pack x).state = .online → s.ppc.dcinOk = false →
          (s.ppc.bridge.fitted = true → t.ppc.bridge.switch = true)
            ∧ ((s.ppc.pack (otherSlot x)).state = .standby →
                (t.ppc.pack (otherSlot x)).state = .online ∧ (t.ppc.pack (otherSlot x)).switch = true)
            ∧ t.ppc.settleTimer = some 20)

/-- R34, R35, R53, R56, R58, R60, R62, R97: a change of DCIN_OK, with the C_power it leaves delivered to LMC. -/
def Obligations.DcChangeSwitches : Prop :=
  ∀ (level : Bool) (s : State), s.ppc.dcinOk = !level → s.ppc.safe → s.ntu.table.length = 32 →
    ∃ t, exec (.dcinOkChange level) s = .next t ∧ OnlyPower s t [.dcChange] ∧ Occurred s t .dcChange
      ∧ ({ s.ppc with dcinOk := level }).onlySelection t.ppc ∧ t.ppc.swDc = level ∧ t.ppc.settled ∧ AloneFollows s t
      ∧ CeilingDelivered s.lmc s t
      ∧ (level = true → t.ppc.settleTimer = s.ppc.settleTimer
          ∧ (∀ x, t.ppc.pack x = if (s.ppc.pack x).state = .online
              then { s.ppc.pack x with state := .standby, switch := false } else s.ppc.pack x)
          ∧ t.ppc.bridge.switch = (s.ppc.bridge.switch && (s.ppc.settleTimer.isSome || s.ppc.brace)))
      ∧ (level = false → t.ppc.settleTimer = some 20
          ∧ t.ppc.bridge.switch = (s.ppc.bridge.switch || s.ppc.bridge.fitted)
          ∧ (∀ x, (s.ppc.pack x).state ≠ .standby → t.ppc.pack x = s.ppc.pack x)
          ∧ (∀ x, (s.ppc.pack x).state = .standby →
              t.ppc.pack x = if (s.ppc.pack (otherSlot x)).state ≠ .standby
                  ∨ (s.ppc.pack (otherSlot x)).energy < (s.ppc.pack x).energy
                  ∨ (s.ppc.pack (otherSlot x)).energy = (s.ppc.pack x).energy ∧ x = .a
                then { s.ppc.pack x with state := .online, switch := true } else s.ppc.pack x))

/-- R49, R51, R53, R56, R62, R97: a change of BR_PRES, after which the conditions BRIDGE_LOW and BRIDGE_FAULT do not hold. -/
def Obligations.BridgeIsFittedOrRemoved : Prop :=
  ∀ (level : Bool) (s : State), s.ppc.bridge.fitted = !level → s.ppc.safe →
    ∃ t, exec (.brPresChange level) s = .next t ∧ OnlyPower s t [] ∧ CeilingFollows s t
      ∧ ConditionFollows s t .bridgeLow false ∧ ConditionFollows s t .bridgeFault false
      ∧ t.ppc.bridge.fitted = level ∧ t.ppc.bridge.last = none ∧ t.ppc.bridge.low = false
      ∧ t.ppc.bridge.switch = (level && (s.ppc.brace || !(s.ppc.swDc || s.ppc.packA.switch || s.ppc.packB.switch)))
      ∧ t.ppc.bridge.alone = (level && !(s.ppc.swDc || s.ppc.packA.switch || s.ppc.packB.switch))
      ∧ t.ppc.bridge.window = (if t.ppc.bridge.alone && !s.ppc.bridge.exhausted then Window.waiting else .none)
      ∧ t.ppc.bridge.exhausted = s.ppc.bridge.exhausted ∧ t.ppc.settled
      ∧ (s.ntu.table.length = 32 → t.ppc.bridge.alone = true →
          t.ntu.isLive .bridgeAlone = true ∧ (s.ntu.isLive .bridgeAlone = false → Occurred s t .bridgeAlone))
      ∧ t.ppc.packA = s.ppc.packA ∧ t.ppc.packB = s.ppc.packB ∧ t.ppc.swDc = s.ppc.swDc
      ∧ t.ppc.settleTimer = s.ppc.settleTimer ∧ t.ppc.profile = s.ppc.profile ∧ t.ppc.power = s.ppc.power
      ∧ t.ppc.bridgeSet = s.ppc.bridgeSet

/-! ### Expiries -/

/-- R29, R31, R32, R41, R43, R55: the four timers of a pack record run out. -/
def Obligations.PackTimersExpire : Prop :=
  ∀ (x : Slot) (s : State), s.ntu.table.length = 32 →
    ((s.ppc.pack x).state = .qualifying → (s.ppc.pack x).qualTimer.isSome = true →
      ∃ t, exec (.qualTimeoutExpiry x) s = .next t ∧ OnlySlot s t x [.packFault x]
        ∧ Occurred s t (.packFault x)
        ∧ t.ppc.pack x = { s.ppc.pack x with
            state := .fault, switch := false, faultCause := some .qualifyTimeout, qualTimer := none, staleTimer := none
            lock := (s.ppc.pack x).lock && decide (s.mtm.phase ≠ .idle)
            lockPending := (s.ppc.pack x).lockPending || decide (s.mtm.phase ≠ .idle) })
    ∧ ((s.ppc.pack x).staleTimer.isSome = true →
      ∃ t, exec (.gaugeStaleExpiry x) s = .next t ∧ OnlySlot s t x []
        ∧ t.ppc.pack x = { s.ppc.pack x with
            staleTimer := none, stale := true
            allowance := if (s.ppc.pack x).sample.isSome then s.ppc.profile.staleAllow else (s.ppc.pack x).allowance }
        ∧ (s.ntu.isLive (.gaugeStale x) = false → Occurred s t (.gaugeStale x))
        ∧ t.ntu.isLive (.gaugeStale x) = true ∧ ((s.ppc.pack x).state = .online → t.ppc.settled))
    ∧ ((s.ppc.pack x).state = .releasing → (s.ppc.pack x).confirmTimer.isSome = true →
      ∃ t, exec (.releaseConfirmExpiry x) s = .next t ∧ OnlySlot s t x [.swapReady]
        ∧ (s.mtm.phase = .idle → Occurred s t .swapReady ∧ t.ppc.pack x = { s.ppc.pack x with
            confirmTimer := none, staleTimer := none, lock := false, state := .unlocked
            holdTimer := some s.ppc.profile.unlockHold })
        ∧ (s.mtm.phase ≠ .idle → t.ppc.pack x = { s.ppc.pack x with confirmTimer := none, lockPending := true }))
    ∧ ((s.ppc.pack x).state = .unlocked → (s.ppc.pack x).holdTimer.isSome = true →
      ∃ t, exec (.unlockHoldExpiry x) s = .next t ∧ OnlySlot s t x []
        ∧ t.ppc.pack x = { s.ppc.pack x with
            holdTimer := none, lock := true, state := .qualifying, qual := 0
            qualTimer := some s.ppc.profile.qualTimeout, staleTimer := some s.ppc.profile.gaugeStale })

/-- R36, R53: TRANSFER_SETTLE runs out, and SW_BR opens unless brace is on or nothing else is closed. R59, R97: the swap window
runs out: the bridge is exhausted, C_power is 0 and the backlight is cut to 0. -/
def Obligations.BridgeTimersExpire : Prop :=
  (∀ s : State, s.ppc.settleTimer.isSome = true →
      ∃ t, exec .transferSettleExpiry s = .next t ∧ OnlyPower s t [] ∧ t.ppc.settleTimer = none ∧ CeilingFollows s t
        ∧ t.ppc.bridge.switch = (s.ppc.bridge.switch
            && (s.ppc.brace || !(s.ppc.swDc || s.ppc.packA.switch || s.ppc.packB.switch)))
        ∧ t.ppc.packA = s.ppc.packA ∧ t.ppc.packB = s.ppc.packB ∧ t.ppc.swDc = s.ppc.swDc
        ∧ s.ppc.onlySelection t.ppc)
  ∧ (∀ (s : State) (ms : Nat), s.ppc.bridge.window = .running ms → s.ppc.safe → s.underCeiling → s.ntu.table.length = 32 →
      ∃ t, exec .swapWindowExpiry s = .next t ∧ OnlyPower s t [.bridgeExhausted] ∧ CeilingDelivered s.lmc s t
        ∧ t.ppc.bridge = { s.ppc.bridge with window := .none, exhausted := true }
        ∧ Occurred s t .bridgeExhausted ∧ t.ppc.budget.cPower = 0 ∧ t.lmc.cPower = 0 ∧ t.lmc.target = 0
        ∧ t.lmc.out = 0 ∧ (0 < s.lmc.out → Occurred s t .ceilingCut)
        ∧ t.ppc.packA = s.ppc.packA ∧ t.ppc.packB = s.ppc.packB ∧ t.ppc.swDc = s.ppc.swDc)

/-- R71, R76, R77: LIGHT_STALE runs out: the role is LOST, the measurement is kept, and with no role LIVE the mode is FAIL
unless it is FORCED. -/
def Obligations.LightStaleLosesARole : Prop :=
  ∀ (r o : LightRole) (s : State), (s.lmc.role r).timer.isSome = true → o ≠ r → s.ntu.table.length = 32 →
    ∃ t, exec (.lightStaleExpiry r) s = .next t
      ∧ t.lmc.role r = { s.lmc.role r with live := false, timer := none } ∧ t.lmc.role o = s.lmc.role o
      ∧ t.lmc.e = s.lmc.e ∧ t.lmc.lg = s.lmc.lg ∧ t.lmc.f = s.lmc.f ∧ t.lmc.out = s.lmc.out ∧ t.lmc.set = s.lmc.set
      ∧ t.lmc.valid = (s.lmc.f.isSome && (s.lmc.role o).live)
      ∧ ((s.lmc.role o).live = false → s.lmc.valid = true → s.lmc.mode = .curve → t.lmc.mode = .fail ∧ t.lmc.aimed)
      ∧ ((s.lmc.role o).live = true → s.lmc.valid = s.lmc.f.isSome →
          t.lmc.mode = s.lmc.mode ∧ TargetKept s t)
      ∧ (s.lmc.mode = .forced → t.lmc.mode = .forced ∧ TargetKept s t)
      ∧ t.lmc.bias = s.lmc.bias ∧ t.lmc.forced = s.lmc.forced ∧ t.lmc.freeze = s.lmc.freeze ∧ t.lmc.cPower = s.lmc.cPower
      ∧ t.lmc.regime = s.lmc.regime ∧ t.lmc.stepTimer = s.lmc.stepTimer ∧ t.lmc.curve.points = s.lmc.curve.points
      ∧ (s.ntu.isLive (.lightLost r) = false → Occurred s t (.lightLost r))
      ∧ s.ntu.onlyEvents lightConditions t.ntu ∧ s.lki.onlyNotice t.lki
      ∧ t.srt = s.srt ∧ t.rqh = s.rqh ∧ t.ppc = s.ppc ∧ t.mtm = s.mtm ∧ t.pending = s.pending

/-- R99, R100: a step moves O toward T by RU or RD and never past it; nothing else changes but the step timer. -/
def Obligations.StepSlewsTheOutput : Prop :=
  ∀ s : State, ∃ t, exec .stepExpiry s = .next t
    ∧ (s.lmc.out < s.lmc.target → t.lmc.out = min s.lmc.target (s.lmc.out + s.lmc.set.ru))
    ∧ (s.lmc.target < s.lmc.out → t.lmc.out = max s.lmc.target (s.lmc.out - s.lmc.set.rd))
    ∧ (s.lmc.out = s.lmc.target → t.lmc.out = s.lmc.out)
    ∧ t = s.setLmc { s.lmc with out := t.lmc.out, stepTimer := s.lmc.set.stepMs } ∧ t.bl = t.lmc.out

/-- R116, R118, R119: ACCEL_STALE runs out: BLIND, and an open record closes as BLIND into HOLD. -/
def Obligations.AccelStaleBlinds : Prop :=
  ∀ s : State, s.mtm.staleTimer.isSome = true → s.mtm.sound → s.ntu.table.length = 32 →
    ∃ t, exec .accelStaleExpiry s = .next t ∧ t.mtm.live = false ∧ t.mtm.staleTimer = none ∧ t.mtm.lowRun = 0
      ∧ t.mtm.history = s.mtm.history ∧ t.mtm.nextSeq = s.mtm.nextSeq ∧ t.mtm.set = s.mtm.set
      ∧ (s.ntu.isLive .motionBlind = false → Occurred s t .motionBlind)
      ∧ (s.mtm.phase.recording = false → t.mtm = { s.mtm with live := false, staleTimer := none, lowRun := 0 })
      ∧ (s.mtm.phase.recording = true → t.mtm.phase = .hold ∧ t.mtm.holdTimer = some s.mtm.set.protectHold
          ∧ Occurred s t .dropRecorded
          ∧ ∀ r, s.mtm.ring.getLast? = some r →
              t.mtm.ring = s.mtm.ring.dropLast ++ [{ r with outcome := .blind, isOpen := false }])
      ∧ t.ppc = s.ppc ∧ t.lmc = s.lmc ∧ t.srt = s.srt ∧ t.rqh = { s.rqh with phaseCopy := t.rqh.phaseCopy }
      ∧ s.ntu.onlyEvents [.motionBlind, .dropRecorded] t.ntu ∧ s.lki.onlyNotice t.lki ∧ t.pending = s.pending

/-- R20, R42, R54, R80, R97, R110, R117: PROTECT_HOLD runs out in HOLD: IDLE at every block, brace, freeze and override off, the
pending locks released, and nothing else but what a selection run and the settlement give. -/
def Obligations.ProtectHoldReturnsToIdle : Prop :=
  ∀ s : State, s.mtm.phase = .hold → s.mtm.holdTimer.isSome = true → s.ntu.table.length = 32 →
    ∃ t, exec .protectHoldExpiry s = .next t
      ∧ t.mtm.phase = .idle ∧ t.mtm.holdTimer = none ∧ t.mtm.lowRun = s.mtm.lowRun ∧ t.mtm.ring = s.mtm.ring
      ∧ t.mtm.history = s.mtm.history ∧ t.mtm.live = s.mtm.live ∧ t.mtm.set = s.mtm.set ∧ t.park = false
      ∧ t.ppc.brace = false ∧ t.lmc.freeze = false ∧ t.srt = { s.srt with overrideEntry := none }
      ∧ t.rqh = { s.rqh with phaseCopy := .idle } ∧ t.lmc.aimed ∧ t.lmc.f = s.lmc.f
      ∧ (∀ x, (s.ppc.pack x).lockPending = true → (t.ppc.pack x).lock = false ∧ (t.ppc.pack x).lockPending = false)
      ∧ (∀ x, (s.ppc.pack x).lockPending = true → (s.ppc.pack x).state = .releasing →
          (t.ppc.pack x).state = .unlocked ∧ (t.ppc.pack x).holdTimer = some s.ppc.profile.unlockHold
            ∧ Occurred s t .swapReady)
      ∧ (s.ppc.safe → s.ppc.settleTimer = none → t.ppc.settleTimer = none → t.ppc.bridge.switch = true →
          t.ppc.swDc = false ∧ t.ppc.packA.switch = false ∧ t.ppc.packB.switch = false)
      ∧ (s.ppc.settleTimer.isSome = true → s.ppc.bridge.switch = true → t.ppc.bridge.switch = true) ∧ t.pending = s.pending
      ∧ (∀ x, (s.ppc.pack x).lockPending = false → (s.ppc.pack x).onlySelected (t.ppc.pack x))
      ∧ ((∀ x, (s.ppc.pack x).lockPending = false) → t.ppc.packA = s.ppc.packA ∧ t.ppc.packB = s.ppc.packB
          ∧ t.ppc.swDc = s.ppc.swDc ∧ t.ppc.settleTimer = s.ppc.settleTimer)
      ∧ ({ s.ppc with brace := false }).onlySelection t.ppc ∧ ({ s.lmc with freeze := false }).onlyTarget t.lmc
      ∧ (s.underCeiling → t.lmc.cPower = t.ppc.budget.cPower ∧ t.lmc.out = min s.lmc.out t.ppc.budget.cPower
          ∧ (t.ppc.budget.cPower < s.lmc.out → Occurred s t .ceilingCut))
      ∧ s.lki.onlyNotice t.lki
      ∧ s.ntu.onlyEvents (.swapReady :: .bridgeExhausted :: .ceilingCut :: .motionBlind :: powerConditions ++ lightConditions) t.ntu

/-- The model's choice (log entry 2): a command that names an event which the state rules out changes nothing. -/
def Obligations.RuledOutCommandsChangeNothing : Prop :=
  ∀ (i : Instr) (s : State), s.rulesOut i = true → exec i s = .next s

/-! ### Requests: the checks before the owner, and LKI's own -/

/-- R153, R154, R172: a code that names no request, then a wrong length, then a reserved bit set, is answered and nothing else
changes. Which bytes hold reserved bits is `RequestCode.reserved`: that an on/off byte above 1 fails this check is by
inference (log entry 13), and that the selector of DROP_READ does is the model's choice (log entry 28). -/
def Obligations.FailedChecksAreAnswered : Prop :=
  ∀ (c : RequestCode) (s : State) (tag : Byte) (args : List Byte), Serving s c tag args →
    (c.lengthOk args = false → ∃ t, exec c.row s = .next t ∧ Answered s t tag .badLength [] ∧ OnlyReply s t)
    ∧ (c.lengthOk args = true → c.reservedSet args = true →
        ∃ t, exec c.row s = .next t ∧ Answered s t tag .badField [] ∧ OnlyReply s t)
    ∧ ∀ u : State, ∀ r, u.rqh.inProgress = some r → (∀ d : RequestCode, d.byte ≠ r.code) →
        ∃ t, exec .unknownRequest u = .next t ∧ Answered u t r.tag .unknown [] ∧ OnlyReply u t

/-- R155, R156, R157, R172: the part's identity, the silence setting, the link's status. The codes and the order of the status
bytes (ATTENDED as 0, the buffer marks) are read from R172 by inference (log entry 14). -/
def Obligations.LinkRequestsAnswer : Prop :=
  ∀ (s : State) (tag : Byte),
    (Serving s .identify tag [] → ∃ t, exec .identify s = .next t ∧ OnlyReply s t
      ∧ Answered s t tag .ok [0x46#8, 0x4D#8, 1#8, 24#8, 4#8, 8#8, 8#8, 8#8, 32#8, 16#8, 8#8, 32#8])
    ∧ (∀ v : Byte, Serving s .linkSet tag [v] → s.lki.regime = .attended →
        ∃ t, exec .linkSet s = .next t ∧ Answered s t tag .ok [v] ∧ t.lki.silenceTimeout = v.toNat
          ∧ t.lki.silenceTimer = (if v.toNat = 0 then none else some (v.toNat * 100))
          ∧ OnlyReply (s.setLki { s.lki with silenceTimeout := v.toNat, silenceTimer := t.lki.silenceTimer }) t)
    ∧ (Serving s .linkStatus tag [] → ∃ t, exec .linkStatus s = .next t ∧ OnlyReply s t
      ∧ Answered s t tag .ok
          ([if s.lki.regime = .attended then 0#8 else 1#8, BitVec.ofNat 8 s.lki.silenceTimeout]
            ++ (match s.lki.silenceTimer with
                | none => [0#8, 0#8, 0#8]
                | some ms => 1#8 :: le16 ms)
            ++ le16 s.lki.linkErrors ++ le16 s.lki.ports.fp0.errors ++ le16 s.lki.ports.fp1.errors
            ++ le16 s.lki.ports.fp2.errors ++ le16 s.lki.ports.fp3.errors
            ++ [BitVec.ofNat 8 s.lki.samples.length, BitVec.ofNat 8 s.lki.replyCount, BitVec.ofNat 8 s.lki.busyCount]
            ++ [PortId.fp0, .fp1, .fp2, .fp3].map fun p => if (s.lki.ports.get p).buffer.isSome then 1#8 else 0#8))

/-! ### Requests of SRT -/

/-- R8, R10, R21: the checks of ROUTE_WRITE in their order, the write, the end of default-route mode and the collision. -/
def Obligations.RouteWriteStoresAnEntry : Prop :=
  ∀ (s : State) (tag i fl m k act fac tap port : Byte),
    Serving s .routeWrite tag [i, fl, m, k, act, fac, tap, port] → fl.toNat < 8 → s.ntu.table.length = 32 →
    (23 < i.toNat → ∃ t, exec .routeWrite s = .next t ∧ Answered s t tag .badIndex [] ∧ OnlyReply s t)
    ∧ (i.toNat ≤ 23 → (2 < act.toNat ∨ 6 < tap.toNat ∨ 3 < port.toNat ∨ (act.toNat ≠ 1 ∧ fac.toNat ≠ 0)
          ∨ (act.toNat = 1 ∧ (fac.toNat < 2 ∨ 64 < fac.toNat))) →
        ∃ t, exec .routeWrite s = .next t ∧ Answered s t tag .badField [] ∧ OnlyReply s t)
    ∧ (i.toNat ≤ 23 → act.toNat ≤ 2 → tap.toNat ≤ 6 → port.toNat ≤ 3 → (act.toNat ≠ 1 → fac.toNat = 0) →
        (act.toNat = 1 → 2 ≤ fac.toNat ∧ fac.toNat ≤ 64) →
        ∃ t e, exec .routeWrite s = .next t
          ∧ e.valid = fl.getLsbD 0 ∧ e.pinned = fl.getLsbD 1 ∧ e.guarded = fl.getLsbD 2 ∧ e.matchId = m ∧ e.mask = k
          ∧ e.action.code = act.toNat ∧ e.factor = fac.toNat ∧ e.tap.code = tap.toNat ∧ portCode e.port = port.toNat
          ∧ e.passed = 0 ∧ e.withheld = 0 ∧ e.phase = 0
          ∧ t.srt = { s.srt with
              table := s.srt.table.set i.toNat e, defaultRoute := s.srt.defaultRoute && !e.valid
              overrideEntry := if s.srt.overrideEntry = some i.toNat then none else s.srt.overrideEntry }
          ∧ Answered s t tag .ok [i, fl, m, k, act, fac, tap, port, 0#8, 0#8, 0#8, 0#8, 0#8,
              BitVec.ofNat 8 (2 * (s.srt.defaultRoute && !e.valid).toNat + 4 * (s.srt.defaultRoute && e.valid).toNat)]
          ∧ (s.srt.overrideEntry = some i.toNat → Occurred s t .routeCollision)
          ∧ (s.srt.overrideEntry ≠ some i.toNat → t.ntu = s.ntu) ∧ s.ntu.onlyEvents [.routeCollision] t.ntu
          ∧ s.lki.onlyNorth t.lki ∧ t.ppc = s.ppc ∧ t.lmc = s.lmc ∧ t.mtm = s.mtm ∧ t.pending = s.pending)

/-- R11: ROUTE_READ reports the entry as stored. -/
def Obligations.RouteReadReports : Prop :=
  ∀ (s : State) (tag i : Byte), Serving s .routeRead tag [i] → s.srt.table.length = 24 →
    ∃ t, exec .routeRead s = .next t ∧ OnlyReply s t
      ∧ (23 < i.toNat → Answered s t tag .badIndex [])
      ∧ ∀ e, s.srt.table[i.toNat]? = some e → Answered s t tag .ok
          ([i, BitVec.ofNat 8 (e.valid.toNat + 2 * e.pinned.toNat + 4 * e.guarded.toNat), e.matchId, e.mask,
              BitVec.ofNat 8 e.action.code, BitVec.ofNat 8 e.factor, BitVec.ofNat 8 e.tap.code,
              BitVec.ofNat 8 (portCode e.port)]
            ++ le16 e.passed ++ le16 e.withheld
            ++ [BitVec.ofNat 8 e.phase,
                BitVec.ofNat 8 ((decide (s.srt.overrideEntry = some i.toNat)).toNat + 2 * s.srt.defaultRoute.toNat)])

/-- R12, R21: ROUTE_FLUSH invalidates the entries that are not pinned, keeps the pinned ones whole, and drops an override
whose entry it touches. -/
def Obligations.RouteFlushInvalidates : Prop :=
  ∀ (s : State) (tag : Byte), Serving s .routeFlush tag [] → s.srt.sound → s.ntu.table.length = 32 →
    ∃ t, exec .routeFlush s = .next t
      ∧ t.srt.table = s.srt.table.map (fun e =>
          if e.pinned then e else { e with valid := false, passed := 0, withheld := 0, phase := 0 })
      ∧ t.srt.unmatched = s.srt.unmatched ∧ t.srt.defaultRoute = s.srt.defaultRoute ∧ t.srt.holding = s.srt.holding
      ∧ Answered s t tag .ok [BitVec.ofNat 8 ((s.srt.table.filter fun e => e.valid && !e.pinned).length)]
      ∧ (s.srt.overrideEntry = none → t.srt.overrideEntry = none ∧ t.ntu = s.ntu)
      ∧ (∀ i e, s.srt.overrideEntry = some i → s.srt.table[i]? = some e →
          (e.pinned = true → t.srt.overrideEntry = some i ∧ t.ntu = s.ntu)
            ∧ (e.pinned = false → t.srt.overrideEntry = none ∧ Occurred s t .routeCollision))
      ∧ s.ntu.onlyEvents [.routeCollision] t.ntu ∧ s.lki.onlyNorth t.lki ∧ t.ppc = s.ppc ∧ t.lmc = s.lmc
      ∧ t.mtm = s.mtm ∧ t.pending = s.pending

/-- R14, Table 1-4: COUNT_SNAPSHOT copies the 54 counters in one event, and with the clear flag sets them to 0 after it. -/
def Obligations.SnapshotCopiesAndClears : Prop :=
  ∀ (s : State) (tag v : Byte), Serving s .countSnapshot tag [v] → v.toNat ≤ 1 → s.srt.table.length = 24 →
    ∃ t, exec .countSnapshot s = .next t ∧ Answered s t tag .ok [] ∧ t.srt.holding.length = 54
      ∧ (∀ i e, s.srt.table[i]? = some e →
          t.srt.holding[2 * i]? = some e.passed ∧ t.srt.holding[2 * i + 1]? = some e.withheld)
      ∧ t.srt.holding.drop 48 = [s.srt.unmatched, s.lki.linkErrors, s.lki.ports.fp0.errors, s.lki.ports.fp1.errors,
          s.lki.ports.fp2.errors, s.lki.ports.fp3.errors]
      ∧ (v.toNat = 0 → t.srt = { s.srt with holding := t.srt.holding } ∧ s.lki.onlyNorth t.lki)
      ∧ (v.toNat = 1 →
          t.srt = { s.srt with holding := t.srt.holding, unmatched := 0
                               table := s.srt.table.map fun e => { e with passed := 0, withheld := 0 } }
            ∧ t.lki.linkErrors = 0 ∧ (∀ p, t.lki.ports.get p = { s.lki.ports.get p with errors := 0 })
            ∧ ({ s.lki with linkErrors := 0, ports := t.lki.ports }).onlyNorth t.lki)
      ∧ t.ppc = s.ppc ∧ t.lmc = s.lmc ∧ t.mtm = s.mtm ∧ t.ntu = s.ntu ∧ t.pending = s.pending

/-- R15: COUNT_READ. -/
def Obligations.CountReadReadsTheHoldingSet : Prop :=
  ∀ (s : State) (tag first count : Byte), Serving s .countRead tag [first, count] →
    ∃ t, exec .countRead s = .next t ∧ OnlyReply s t
      ∧ (53 < first.toNat ∨ 54 < first.toNat + count.toNat → Answered s t tag .badIndex [])
      ∧ (first.toNat ≤ 53 → first.toNat + count.toNat ≤ 54 → count.toNat = 0 ∨ 16 < count.toNat →
          Answered s t tag .badField [])
      ∧ (first.toNat ≤ 53 → first.toNat + count.toNat ≤ 54 → 1 ≤ count.toNat → count.toNat ≤ 16 →
          Answered s t tag .ok (((s.srt.holding.drop first.toNat).take count.toNat).flatMap le16))

/-- R16 to R18, R170, Table 1-5: PASS. That the sending of a placed payload begins in the same event is by inference (log
entry 17). -/
def Obligations.PassReachesItsPort : Prop :=
  ∀ (s : State) (tag dest : Byte) (payload : List Byte), Serving s .pass tag (dest :: payload) →
    (payload.length = 0 ∨ 40 < payload.length →
      ∃ t, exec .pass s = .next t ∧ Answered s t tag .badLength [] ∧ OnlyReply s t)
    ∧ (1 ≤ payload.length → payload.length ≤ 40 → s.srt.noEntry dest →
        ∃ t, exec .pass s = .next t ∧ Answered s t tag .noRoute [] ∧ OnlyReply s t)
    ∧ (1 ≤ payload.length → payload.length ≤ 40 → ∀ i e, s.srt.entryFor dest i e →
        let condition := (e.tap = .accel ∧ s.mtm.phase ≠ .idle)
          ∨ (e.tap = .gaugeA ∧ (s.ppc.packA.state = .qualifying ∨ s.ppc.packA.state = .releasing))
          ∨ (e.tap = .gaugeB ∧ (s.ppc.packB.state = .qualifying ∨ s.ppc.packB.state = .releasing))
          ∨ (e.tap = .bridge ∧ s.ppc.bridge.switch = true)
        (e.guarded = true → condition →
            ∃ t, exec .pass s = .next t ∧ Answered s t tag .isProtected [] ∧ OnlyReply s t)
          ∧ (e.guarded = false ∨ ¬condition → (s.lki.ports.get e.port).buffer.isSome = true →
              ∃ t, exec .pass s = .next t ∧ Answered s t tag .busy [] ∧ OnlyReply s t)
          ∧ (e.guarded = false ∨ ¬condition → (s.lki.ports.get e.port).buffer = none →
              ∃ t, exec .pass s = .next t ∧ Answered s t tag .ok []
                ∧ OnlyReply (s.setLki { s.lki with ports := s.lki.ports.set e.port { s.lki.ports.get e.port with
                    buffer := some { dest := dest, payload := payload, begun := true } } }) t))

/-! ### Requests of PPC -/

/-- R23, R51, R55, R56, R57, R61, R62, R63, R97: PACK_PROFILE_WRITE, POWER_SET and BRIDGE_SET are refused whole, or store their
settings, recompute the allowances, re-evaluate low, settle, and deliver a changed C_power, which cuts an O above it. That a
profile write recomputes the allowance of a RELEASING, UNLOCKED or FAULT pack too follows R23 against R55 (log entry 12,
DEDUCED). -/
def Obligations.PowerRequestsSettle : Prop :=
  (∀ (s : State) (tag : Byte) (a : List Byte), Serving s .packProfileWrite tag a → a.length = 51 →
      (let f : PackProfile :=
         { qvMin := u16 a 0, qvMax := u16 a 2, qualNeeded := u8 a 4, qualTimeout := u16 a 5, tLow := s16 a 7
           tCut := s16 a 9, vCut := u16 a 11, t1 := s16 a 13, t2 := s16 a 15, t3 := s16 a 17, imax0 := u16 a 19
           imax1 := u16 a 21, imax2 := u16 a 23, imax3 := u16 a 25, pmaxPack := u32 a 27, staleAllow := u32 a 31
           gaugeStale := u16 a 35, rotateMwh := u32 a 37, rotateGap := u32 a 41, releaseMa := u16 a 45
           releaseConfirm := u16 a 47, unlockHold := u16 a 49 }
       let right := u16 a 0 ≤ 20000 ∧ u16 a 2 ≤ 20000 ∧ 1 ≤ u8 a 4 ∧ u8 a 4 ≤ 15 ∧ 100 ≤ u16 a 5 ∧ u16 a 5 ≤ 60000
         ∧ (∀ o ∈ [7, 9, 13, 15, 17], -400 ≤ s16 a o ∧ s16 a o ≤ 1000) ∧ u16 a 11 ≤ 20000
         ∧ (∀ o ∈ [19, 21, 23, 25], u16 a o ≤ 20000) ∧ u32 a 27 ≤ 100000 ∧ u32 a 31 ≤ 100000
         ∧ 100 ≤ u16 a 35 ∧ u16 a 35 ≤ 10000 ∧ u32 a 37 ≤ 200000 ∧ u32 a 41 ≤ 200000 ∧ u16 a 45 ≤ 20000
         ∧ 10 ≤ u16 a 47 ∧ u16 a 47 ≤ 5000 ∧ 1000 ≤ u16 a 49 ∧ u16 a 49 ≤ 60000
         ∧ u16 a 0 ≤ u16 a 2 ∧ s16 a 7 < s16 a 9 ∧ s16 a 13 ≤ s16 a 15 ∧ s16 a 15 ≤ s16 a 17
       (¬right → ∃ t, exec .packProfileWrite s = .next t ∧ Answered s t tag .badField [] ∧ OnlyReply s t)
        ∧ (right → ∃ t, exec .packProfileWrite s = .next t ∧ Answered s t tag .ok a ∧ OnlyPowerReply s t []
            ∧ t.ppc.profile = f ∧ t.ppc.settled ∧ CeilingDelivered s.lmc s t
            ∧ (∀ x g, (s.ppc.pack x).sample = some g → t.ppc.pack x = { s.ppc.pack x with
                allowance := if (s.ppc.pack x).stale then f.staleAllow
                  else min f.pmaxPack (g.voltage * (if g.temperature < f.t1 then f.imax0
                    else if g.temperature < f.t2 then f.imax1 else if g.temperature < f.t3 then f.imax2 else f.imax3)
                    / 1000) })
            ∧ (∀ x, (s.ppc.pack x).sample = none → t.ppc.pack x = s.ppc.pack x)
            ∧ ({ s.ppc with profile := f }).onlySelection t.ppc ∧ t.ppc.settleTimer = s.ppc.settleTimer
            ∧ t.ppc.bridge.switch = s.ppc.bridge.switch ∧ t.ppc.swDc = s.ppc.swDc
            ∧ (s.ppc.safe → t.ppc.bridge = s.ppc.bridge))))
  ∧ (∀ (s : State) (tag : Byte) (args : List Byte),
      (Serving s .powerSet tag args → args.length = 8 →
        (20000 < u16 args 6 → ∃ t, exec .powerSet s = .next t ∧ Answered s t tag .badField [] ∧ OnlyReply s t)
        ∧ (u16 args 6 ≤ 20000 → ∃ t, exec .powerSet s = .next t ∧ OnlyPowerReply s t [] ∧ t.ppc.settled
            ∧ CeilingDelivered s.lmc s t
            ∧ t.ppc.power = { pSys := min (u16 args 0) 60000, dcLimit := min (u32 args 2) 100000, margin := u16 args 6 }
            ∧ Answered s t tag .ok (le16 (min (u16 args 0) 60000) ++ le32 (min (u32 args 2) 100000) ++ le16 (u16 args 6))
            ∧ ({ s.ppc with power := t.ppc.power }).onlySelection t.ppc ∧ t.ppc.packA = s.ppc.packA
            ∧ t.ppc.packB = s.ppc.packB ∧ t.ppc.swDc = s.ppc.swDc ∧ t.ppc.bridge.switch = s.ppc.bridge.switch
            ∧ t.ppc.settleTimer = s.ppc.settleTimer ∧ (s.ppc.safe → t.ppc.bridge = s.ppc.bridge)))
      ∧ (Serving s .bridgeSet tag args → args.length = 10 →
        (100000 < u32 args 6 → ∃ t, exec .bridgeSet s = .next t ∧ Answered s t tag .badField [] ∧ OnlyReply s t)
        ∧ (u32 args 6 ≤ 100000 → ∃ t, exec .bridgeSet s = .next t ∧ OnlyPowerReply s t [] ∧ t.ppc.settled
            ∧ CeilingDelivered s.lmc s t ∧ ConditionFollows s t .bridgeLow t.ppc.bridge.low
            ∧ t.ppc.bridgeSet = { reserve := u16 args 0, swapMin := u16 args 2, compare := u16 args 4, pmax := u32 args 6 }
            ∧ Answered s t tag .ok args ∧ t.ppc.bridge.low = s.ppc.bridge.last.any (fun g => g.charge ≤ u16 args 4)
            ∧ t.ppc.packA = s.ppc.packA ∧ t.ppc.packB = s.ppc.packB ∧ t.ppc.swDc = s.ppc.swDc
            ∧ t.ppc.bridge.switch = s.ppc.bridge.switch ∧ t.ppc.power = s.ppc.power ∧ t.ppc.profile = s.ppc.profile
            ∧ t.ppc.settleTimer = s.ppc.settleTimer
            ∧ (s.ppc.safe → t.ppc.bridge = { s.ppc.bridge with low := t.ppc.bridge.low }))))

/-- R45, R64, R82, R88, R103, R172: PACK_STATUS, POWER_STATUS, CURVE_READ and BL_STATUS report what stands, in the order of the
rules, and change nothing. The codes of their bytes (first listed value 0, level bytes, one mark for a whole sample, 16 points
without a length), the order of the four remaining times of PACK_STATUS and that of the two roles of BL_STATUS are read from R172
and the spec's prose by inference (log entry 14). -/
def Obligations.StatusRequestsReport : Prop :=
  (∀ (s : State) (tag : Byte),
      (∀ n : Byte, Serving s .packStatus tag [n] →
        ∃ t, exec .packStatus s = .next t ∧ OnlyReply s t
          ∧ (1 < n.toNat → Answered s t tag .badIndex [])
          ∧ ∀ x, n = (if x = .a then 0#8 else 1#8) →
              (let k := s.ppc.pack x
               Answered s t tag .ok
                ([BitVec.ofNat 8 k.state.code] ++ flag (!k.presence) ++ flag (!k.lever) ++ flag (!k.lock) ++ flag k.switch
                  ++ (match k.sample with
                      | none => List.replicate 13 0#8
                      | some g => 1#8 :: (le16 g.voltage ++ sle16 g.current ++ sle16 g.temperature ++ le32 g.energy
                          ++ flag g.fault ++ flag g.charging))
                  ++ optField 2 le16 k.age ++ flag k.stale ++ [BitVec.ofNat 8 k.qual] ++ le32 k.allowance
                  ++ optField 1 (fun c => [BitVec.ofNat 8 c.code]) k.faultCause
                  ++ optField 1 (fun c => [BitVec.ofNat 8 c.code]) k.lastRefusal
                  ++ optField 1 (fun c => [BitVec.ofNat 8 c.code]) k.lossCause ++ flag k.lockPending
                  ++ optField 2 le16 k.qualTimer ++ optField 2 le16 k.confirmTimer ++ optField 2 le16 k.holdTimer
                  ++ optField 2 le16 k.staleTimer)))
      ∧ (Serving s .powerStatus tag [] →
        ∃ t, exec .powerStatus s = .next t ∧ OnlyReply s t
          ∧ Answered s t tag .ok
              (flag s.ppc.swDc ++ flag s.ppc.packA.switch ++ flag s.ppc.packB.switch ++ flag s.ppc.bridge.switch
                ++ flag s.ppc.dcinOk ++ flag s.ppc.bridge.fitted ++ flag s.ppc.brace ++ flag s.ppc.bridge.alone
                ++ le32 s.ppc.budget.pAv ++ le16 s.ppc.budget.aBl ++ le16 s.ppc.budget.cPower
                ++ (match s.ppc.bridge.window with
                    | .none => [0#8, 0#8, 0#8, 0#8, 0#8, 0#8]
                    | .waiting => [1#8, 0#8, 0#8, 0#8, 0#8, 0#8]
                    | .running ms => [2#8, 1#8] ++ le32 ms)
                ++ flag s.ppc.bridge.exhausted
                ++ (match s.ppc.bridge.last with
                    | none => List.replicate 6 0#8
                    | some g => 1#8 :: (le16 g.voltage ++ le16 g.charge ++ flag g.fault))
                ++ flag s.ppc.bridge.low ++ le16 s.ppc.power.pSys ++ le32 s.ppc.power.dcLimit ++ le16 s.ppc.power.margin
                ++ le16 s.ppc.bridgeSet.reserve ++ le16 s.ppc.bridgeSet.swapMin ++ le16 s.ppc.bridgeSet.compare
                ++ le32 s.ppc.bridgeSet.pmax)))
  ∧ (∀ (s : State) (tag : Byte),
      (Serving s .curveRead tag [] → ∃ t, exec .curveRead s = .next t ∧ OnlyReply s t
        ∧ Answered s t tag .ok
            ([BitVec.ofNat 8 s.lmc.curve.n] ++ le16 s.lmc.curve.floor ++ le16 s.lmc.curve.failLevel
              ++ s.lmc.curve.points.flatMap (fun p => le16 p.x ++ le16 p.y)
              ++ optField 1 (fun i => [BitVec.ofNat 8 i]) s.lmc.curve.latch ++ flag s.lmc.curve.validationPending
              ++ flag (!s.lmc.curve.consistent)))
      ∧ (Serving s .blStatus tag [] → ∃ t, exec .blStatus s = .next t ∧ OnlyReply s t
        ∧ Answered s t tag .ok
            ([LightRole.front, .top].flatMap (fun r => flag (!(s.lmc.role r).live) ++ optField 4 le32 (s.lmc.role r).lux
                ++ optField 2 le16 (s.lmc.role r).timer)
              ++ optField 4 le32 s.lmc.e ++ optField 2 le16 s.lmc.lg ++ optField 2 le16 s.lmc.f ++ flag s.lmc.valid
              ++ flag s.lmc.freeze ++ [BitVec.ofNat 8 s.lmc.mode.code] ++ optField 2 le16 s.lmc.forced ++ sle16 s.lmc.bias
              ++ le16 s.lmc.t0 ++ le16 s.lmc.cPower ++ le16 s.lmc.target ++ le16 s.lmc.out
              ++ [BitVec.ofNat 8 s.lmc.regime.code] ++ le16 s.lmc.set.cUnatt ++ le16 s.lmc.stepTimer
              ++ optField 1 (fun i => [BitVec.ofNat 8 i]) s.lmc.curve.latch ++ flag s.lmc.curve.validationPending
              ++ flag (!s.lmc.curve.consistent))))

/-- R37 to R40, R53, R58, R62, R97, R158: PACK_RELEASE is judged as a lever press is, in ATTENDED whatever the regime, and
answered. -/
def Obligations.PackReleaseAnswers : Prop :=
  ∀ (s : State) (tag n : Byte), Serving s .packRelease tag [n] → s.ntu.table.length = 32 →
    (1 < n.toNat → ∃ t, exec .packRelease s = .next t ∧ Answered s t tag .badIndex [] ∧ OnlyReply s t)
    ∧ ∀ x, n = (if x = .a then 0#8 else 1#8) →
        ∃ t out, exec .packRelease s = .next t ∧ Released s t x .attended out ∧ AloneFollows s t
          ∧ OnlyPowerReply s t [.swapRefused, .swapReady] ∧ s.ppc.onlySelection t.ppc ∧ CeilingFollows s t
          ∧ (out = .ignored → Answered s t tag .refused [5#8] ∧ OnlyReply s t)
          ∧ (∀ r, out = .refused r → Answered s t tag .refused [BitVec.ofNat 8 r.code]
              ∧ Occurred s t .swapRefused)
          ∧ (out = .done → Answered s t tag .ok []
              ∧ ((t.ppc.pack x).state = .unlocked → Occurred s t .swapReady))
          ∧ (out = .done → (s.ppc.pack x).state = .online → s.ppc.dcinOk = false →
              (s.ppc.bridge.fitted = true → t.ppc.bridge.switch = true) ∧ t.ppc.settleTimer = some 20
                ∧ ((s.ppc.pack (otherSlot x)).state = .standby → (t.ppc.pack (otherSlot x)).state = .online))

/-! ### Requests of LMC -/

/-- R62, R68, R97, R101, R102: LIGHT_SET is refused whole, or replaces every setting it carries, and delivers a changed P_BL_MAX;
the C_power that the settlement then changes cuts an O above it. -/
def Obligations.LightSetStoresSettings : Prop :=
  ∀ (s : State) (tag : Byte) (a : List Byte), Serving s .lightSet tag a → a.length = 32 →
    let right := (∀ i < 8, u16 a (2 * i) ≠ 0) ∧ 100 ≤ u16 a 20 ∧ u16 a 20 ≤ 10000 ∧ 4 ≤ u16 a 22 ∧ u16 a 22 ≤ 1000
      ∧ 1 ≤ u16 a 24 ∧ u16 a 24 ≤ 4095 ∧ 1 ≤ u16 a 26 ∧ u16 a 26 ≤ 4095
    (¬right → ∃ t, exec .lightSet s = .next t ∧ Answered s t tag .badField [] ∧ OnlyReply s t)
    ∧ (right → ∃ t, exec .lightSet s = .next t ∧ OnlyPowerReply (s.setLmc t.lmc) t []
        ∧ t.lmc.set = { wTop := min (u8 a 16) 16, deadBand := u8 a 17, sUp := min (u8 a 18) 7, sDown := min (u8 a 19) 7
                        lightStale := u16 a 20, stepMs := u16 a 22, ru := u16 a 24, rd := u16 a 26
                        pBlMax := max 1000 (min (u16 a 28) 20000), cUnatt := min (u16 a 30) 4095 }
        ∧ t.lmc.front = { s.lmc.front with gains := ⟨u16 a 0, u16 a 2, u16 a 4, u16 a 6⟩ }
        ∧ t.lmc.top = { s.lmc.top with gains := ⟨u16 a 8, u16 a 10, u16 a 12, u16 a 14⟩ }
        ∧ ({ s.lmc with set := t.lmc.set, front := t.lmc.front, top := t.lmc.top }).onlyTarget t.lmc
        ∧ t.ppc.pBlMax = t.lmc.set.pBlMax
        ∧ (t.lmc.set.pBlMax = s.ppc.pBlMax → t.ppc = s.ppc ∧ t.ntu = s.ntu ∧ t.lmc.out = s.lmc.out
            ∧ t.lmc.target = s.lmc.target)
        ∧ (t.lmc.set.pBlMax ≠ s.ppc.pBlMax → t.ppc.settled
            ∧ ({ s.ppc with pBlMax := t.lmc.set.pBlMax }).onlySelection t.ppc ∧ t.ppc.packA = s.ppc.packA
            ∧ t.ppc.packB = s.ppc.packB ∧ t.ppc.swDc = s.ppc.swDc ∧ t.ppc.bridge.switch = s.ppc.bridge.switch
            ∧ t.ppc.settleTimer = s.ppc.settleTimer ∧ (s.ppc.safe → t.ppc.bridge = s.ppc.bridge)
            ∧ CeilingDelivered { s.lmc with set := t.lmc.set, front := t.lmc.front, top := t.lmc.top } s t)
        ∧ Answered s t tag .ok (a.take 16 ++ t.lmc.set.bytes))

/-- R86, R87, R89 to R92: the curve writes: what is stored, when the latch falls, and when the target is recomputed; a full search
clears validation-pending and finds the curve consistent or not, T0 is held without a value, and CURVE_FAULT follows. -/
def Obligations.CurveWritesStorePoints : Prop :=
  ∀ (s : State) (tag : Byte) (a : List Byte), a.length = 5 →
    (Serving s .curveWriteHeader tag a →
      (u8 a 0 < 2 ∨ 16 < u8 a 0 → ∃ t, exec .curveWriteHeader s = .next t ∧ Answered s t tag .badField [] ∧ OnlyReply s t)
      ∧ (2 ≤ u8 a 0 → u8 a 0 ≤ 16 → ∃ t, exec .curveWriteHeader s = .next t ∧ OnlyLightReply s t
          ∧ t.lmc.curve.n = u8 a 0 ∧ t.lmc.curve.floor = min (u16 a 1) 4095 ∧ t.lmc.curve.failLevel = min (u16 a 3) 4095
          ∧ t.lmc.curve.points = s.lmc.curve.points ∧ t.lmc.aimed ∧ t.lmc.out = s.lmc.out ∧ t.lmc.mode = s.lmc.mode
          ∧ ({ s.lmc with curve := { s.lmc.curve with n := t.lmc.curve.n, floor := t.lmc.curve.floor
                                                      failLevel := t.lmc.curve.failLevel } }).onlyTarget t.lmc
          ∧ t.lmc.cPower = s.lmc.cPower
          ∧ (s.lmc.mode ≠ .curve → t.lmc.curve.validationPending = true ∧ t.lmc.curve.latch = none)
          ∧ (s.lmc.mode = .curve → s.lmc.f.isSome = true → t.lmc.curve.validationPending = false)
          ∧ ({ s.lmc with curve := { s.lmc.curve with
                n := u8 a 0, floor := min (u16 a 1) 4095, failLevel := min (u16 a 3) 4095, latch := none
                validationPending := true } } : Lmc).Recomputed t.lmc
          ∧ FaultFollows s t
          ∧ Answered s t tag .ok ([a.getD 0 0#8] ++ le16 (min (u16 a 1) 4095) ++ le16 (min (u16 a 3) 4095))))
    ∧ (Serving s .curveWritePoint tag a →
      (15 < u8 a 0 → ∃ t, exec .curveWritePoint s = .next t ∧ Answered s t tag .badIndex [] ∧ OnlyReply s t)
      ∧ (u8 a 0 ≤ 15 → ∃ t, exec .curveWritePoint s = .next t ∧ OnlyLightReply s t
          ∧ t.lmc.curve.points = s.lmc.curve.points.set (u8 a 0) ⟨min (u16 a 1) 4607, min (u16 a 3) 4095⟩
          ∧ t.lmc.curve.n = s.lmc.curve.n ∧ t.lmc.curve.floor = s.lmc.curve.floor
          ∧ t.lmc.curve.failLevel = s.lmc.curve.failLevel ∧ t.lmc.out = s.lmc.out ∧ t.lmc.mode = s.lmc.mode
          ∧ ({ s.lmc with curve := { s.lmc.curve with points := t.lmc.curve.points } }).onlyTarget t.lmc
          ∧ t.lmc.cPower = s.lmc.cPower
          ∧ (let stored := { s.lmc.curve with
               points := s.lmc.curve.points.set (u8 a 0) ⟨min (u16 a 1) 4607, min (u16 a 3) 4095⟩, validationPending := true }
             (∀ i, s.lmc.curve.latch = some i → u8 a 0 = i ∨ u8 a 0 = i + 1 →
                ({ s.lmc with curve := { stored with latch := none } } : Lmc).Recomputed t.lmc ∧ t.lmc.aimed
                  ∧ (s.lmc.mode ≠ .curve → t.lmc.curve.latch = none))
              ∧ (s.lmc.curve.latch = none → u8 a 0 < s.lmc.curve.n →
                ({ s.lmc with curve := stored } : Lmc).Recomputed t.lmc ∧ t.lmc.aimed))
          ∧ FaultFollows s t
          ∧ ((∃ i, s.lmc.curve.latch = some i ∧ u8 a 0 ≠ i ∧ u8 a 0 ≠ i + 1)
                ∨ (s.lmc.curve.latch = none ∧ s.lmc.curve.n ≤ u8 a 0) →
              t.lmc = { s.lmc with curve := { s.lmc.curve with points := t.lmc.curve.points, validationPending := true } })
          ∧ Answered s t tag .ok ([a.getD 0 0#8] ++ le16 (min (u16 a 1) 4607) ++ le16 (min (u16 a 3) 4095))))

/-- R89 to R95: BL_BIAS, BL_FORCE and BL_RELEASE store their value, recompute the target and leave O to the steps. -/
def Obligations.BacklightRequestsAim : Prop :=
  ∀ (s : State) (tag : Byte) (a : List Byte),
    (Serving s .blBias tag a → a.length = 2 →
      ∃ t, exec .blBias s = .next t ∧ OnlyLightReply s t ∧ t.lmc.bias = max (-1024) (min (s16 a 0) 1023) ∧ t.lmc.aimed
        ∧ ({ s.lmc with bias := max (-1024) (min (s16 a 0) 1023) } : Lmc).Recomputed t.lmc ∧ FaultFollows s t
        ∧ ({ s.lmc with bias := t.lmc.bias }).onlyTarget t.lmc ∧ t.lmc.out = s.lmc.out
        ∧ Answered s t tag .ok (sle16 (max (-1024) (min (s16 a 0) 1023))))
    ∧ (Serving s .blForce tag a → a.length = 2 →
      ∃ t, exec .blForce s = .next t ∧ OnlyLightReply s t ∧ t.lmc.forced = some (min (u16 a 0) 4095)
        ∧ t.lmc.mode = .forced ∧ t.lmc.aimed ∧ t.lmc.curve = s.lmc.curve
        ∧ ({ s.lmc with forced := t.lmc.forced, mode := .forced }).onlyTarget t.lmc ∧ t.lmc.out = s.lmc.out
        ∧ Answered s t tag .ok (le16 (min (u16 a 0) 4095)))
    ∧ (Serving s .blRelease tag [] → s.lmc.mode ≠ .forced →
        ∃ t, exec .blRelease s = .next t ∧ Answered s t tag .refused [6#8] ∧ OnlyReply s t)
    ∧ (Serving s .blRelease tag [] → s.lmc.mode = .forced →
        ∃ t, exec .blRelease s = .next t ∧ OnlyLightReply s t ∧ t.lmc.forced = none
          ∧ t.lmc.mode = (if s.lmc.valid then .curve else .fail) ∧ t.lmc.aimed
          ∧ ({ s.lmc with forced := none, mode := if s.lmc.valid then .curve else .fail } : Lmc).Recomputed t.lmc
          ∧ FaultFollows s t
          ∧ ({ s.lmc with forced := none, mode := t.lmc.mode }).onlyTarget t.lmc ∧ t.lmc.out = s.lmc.out
          ∧ Answered s t tag .ok [if s.lmc.valid then 0#8 else 1#8])

/-! ### Requests of MTM -/

/-- R109, R120: MOTION_SET is refused whole or replaces the nine settings and nothing else; MOTION_STATUS reports.
The codes and the order of its bytes (LIVE as 0) are read from R172 by inference (log entry 14). -/
def Obligations.MotionRequestsAnswer : Prop :=
  ∀ (s : State) (tag : Byte),
    (∀ a, Serving s .motionSet tag a → a.length = 17 →
      let right := 50 ≤ u16 a 0 ∧ u16 a 0 ≤ 2000 ∧ 1 ≤ u8 a 2 ∧ 2 ≤ u16 a 3 ∧ 1000 ≤ u16 a 5 ∧ u16 a 5 ≤ 28000
        ∧ u16 a 7 ≤ 1000 ∧ 1 ≤ u16 a 9 ∧ 1 ≤ u16 a 11 ∧ 50 ≤ u16 a 13 ∧ u16 a 13 ≤ 60000 ∧ 10 ≤ u16 a 15
        ∧ u16 a 15 ≤ 1000 ∧ u16 a 0 < u16 a 5 ∧ u8 a 2 < u16 a 3 ∧ u16 a 9 ≤ u16 a 11
      (¬right → ∃ t, exec .motionSet s = .next t ∧ Answered s t tag .badField [] ∧ OnlyReply s t)
      ∧ (right → ∃ t, exec .motionSet s = .next t ∧ Answered s t tag .ok a ∧ OnlyOwnReply s t ∧ t.ntu = s.ntu
          ∧ t.mtm = { s.mtm with set := { ffThresh := u16 a 0, ffCount := u8 a 2, ffMax := u16 a 3
                                          impactThresh := u16 a 5, quietBand := u16 a 7, quietCount := u16 a 9
                                          settleMax := u16 a 11, protectHold := u16 a 13, accelStale := u16 a 15 } }))
    ∧ (Serving s .motionStatus tag [] → ∃ t, exec .motionStatus s = .next t ∧ OnlyReply s t
      ∧ Answered s t tag .ok
          ([BitVec.ofNat 8 s.mtm.phase.code, BitVec.ofNat 8 s.mtm.lowRun, BitVec.ofNat 8 s.mtm.midRun]
            ++ le16 s.mtm.quiet ++ le16 s.mtm.settled ++ optField 1 (fun i => [BitVec.ofNat 8 i]) s.mtm.accelIndex
            ++ optField 2 le16 s.mtm.lastMag ++ [BitVec.ofNat 8 s.mtm.history.length] ++ s.mtm.history.flatMap le16
            ++ List.replicate (16 - 2 * s.mtm.history.length) 0#8 ++ flag (!s.mtm.live)
            ++ optField 2 le16 s.mtm.staleTimer ++ optField 2 le16 s.mtm.holdTimer
            ++ optField 2 le16 ((s.mtm.ring.find? (·.isOpen)).map (·.seq)) ++ s.mtm.set.bytes))

/-- Table 10-8: the bytes of a drop record on the link; absent peak fields and an absent lead count are 0. -/
def recordBytes (r : DropRecord) : List Byte :=
  le16 r.seq
    ++ [BitVec.ofNat 8 (r.kind.code + 4 * r.outcome.code + 16 * r.source.code + 128 * r.isOpen.toNat),
        BitVec.ofNat 8 (r.bounces + 16 * r.lead.getD 0),
        BitVec.ofNat 8 (r.capture.length + 32 * r.peak.isSome.toNat + 64 * r.swapInProgress.toNat),
        BitVec.ofNat 8 (r.dislodgedA.toNat + 2 * r.dislodgedB.toNat
          + (match r.peak with
             | none => 0
             | some q => 4 * q.axis.code + 16 * q.negative.toNat))]
    ++ le16 r.fallLength
    ++ le16 (match r.peak with
        | none => 0
        | some q => q.magnitude)
    ++ r.capture.flatMap le16

/-- R132, Table 10-8: DROP_READ returns the oldest record or the one named, with the ring summary, and changes nothing. -/
def Obligations.DropReadReturnsARecord : Prop :=
  ∀ (s : State) (tag sel lo hi : Byte), Serving s .dropRead tag [sel, lo, hi] → sel.toNat ≤ 1 →
    ∃ t, exec .dropRead s = .next t ∧ OnlyReply s t
      ∧ ((sel.toNat = 1 → s.mtm.ring = []) → (sel.toNat = 0 → ∀ r ∈ s.mtm.ring, r.seq ≠ lo.toNat + 256 * hi.toNat) →
          Answered s t tag .badIndex (BitVec.ofNat 8 s.mtm.ring.length :: le16 s.mtm.nextSeq))
      ∧ (∀ r rest, sel.toNat = 1 → s.mtm.ring = r :: rest →
          Answered s t tag .ok (recordBytes r ++ BitVec.ofNat 8 s.mtm.ring.length :: le16 s.mtm.nextSeq))
      ∧ (∀ older r newer, sel.toNat = 0 → s.mtm.ring = older ++ r :: newer → r.seq = lo.toNat + 256 * hi.toNat →
          (∀ q ∈ older, q.seq ≠ lo.toNat + 256 * hi.toNat) →
          Answered s t tag .ok (recordBytes r ++ BitVec.ofNat 8 s.mtm.ring.length :: le16 s.mtm.nextSeq))

/-- R133: DROP_RELEASE frees the named CLOSED record and every older one, and keeps the newer. -/
def Obligations.DropReleaseFreesTheOlder : Prop :=
  ∀ (s : State) (tag lo hi : Byte), Serving s .dropRelease tag [lo, hi] →
    ((∀ r ∈ s.mtm.ring, r.seq ≠ lo.toNat + 256 * hi.toNat) → ∃ t, exec .dropRelease s = .next t ∧ OnlyReply s t
        ∧ Answered s t tag .badIndex (BitVec.ofNat 8 s.mtm.ring.length :: le16 s.mtm.nextSeq))
    ∧ ∀ older r newer, s.mtm.ring = older ++ r :: newer → r.seq = lo.toNat + 256 * hi.toNat →
        (∀ q ∈ older, q.seq ≠ lo.toNat + 256 * hi.toNat) →
        (r.isOpen = true → ∃ t, exec .dropRelease s = .next t ∧ Answered s t tag .refused [7#8] ∧ OnlyReply s t)
        ∧ (r.isOpen = false → ∃ t, exec .dropRelease s = .next t ∧ OnlyOwnReply s t ∧ t.ntu = s.ntu
            ∧ t.mtm = { s.mtm with ring := newer }
            ∧ Answered s t tag .ok
                ([BitVec.ofNat 8 (older.length + 1), BitVec.ofNat 8 newer.length] ++ le16 s.mtm.nextSeq))

/-! ### Requests of NTU and RESTART -/

/-- R140 to R143: EVENT_CONFIG: the checks in their order, the stored enable and level, the judgement, which a running hold-off
withholds from the levels 1 to 5. R144: NOTICE_ENABLE
takes the value given; turned on from off, it notifies what waits for it. The NOTICE of each is as R141 says. -/
def Obligations.NoticeConfigurationJudges : Prop :=
  (∀ (s : State) (tag k en lv : Byte), Serving s .eventConfig tag [k, en, lv] → en.toNat ≤ 1 →
      (31 < k.toNat → ∃ t, exec .eventConfig s = .next t ∧ Answered s t tag .badIndex [] ∧ OnlyReply s t)
      ∧ (∀ l, k.toNat ≤ 31 → hardLevel k.toNat = some l → lv.toNat ≠ l →
          ∃ t, exec .eventConfig s = .next t ∧ Answered s t tag .refused [8#8] ∧ OnlyReply s t)
      ∧ (k.toNat ≤ 31 → hardLevel k.toNat = none → 7 < lv.toNat →
          ∃ t, exec .eventConfig s = .next t ∧ Answered s t tag .badField [] ∧ OnlyReply s t)
      ∧ (∀ e, s.ntu.table[k.toNat]? = some e → k.toNat ≤ 31 →
          hardLevel k.toNat = some lv.toNat ∨ (hardLevel k.toNat = none ∧ lv.toNat ≤ 7) →
          ∃ t e', exec .eventConfig s = .next t ∧ OnlyOwnReply s t ∧ t.mtm = s.mtm
            ∧ Answered s t tag .ok [k, en, lv] ∧ t.ntu.globalEnable = s.ntu.globalEnable ∧ t.ntu.holdOff = s.ntu.holdOff
            ∧ Noticed s t
            ∧ t.ntu.table[k.toNat]? = some e' ∧ e'.enable = decide (en.toNat = 1) ∧ e'.level = lv.toNat
            ∧ e'.latched = e.latched ∧ e'.live = e.live
            ∧ (e.latched = true → e.notified = false → hardLevel k.toNat = none → en.toNat = 1 → 1 ≤ lv.toNat →
                s.ntu.globalEnable = true → (6 ≤ lv.toNat ∨ s.ntu.holdOff = none) → e'.notified = true)
            ∧ (e.latched = true → e.notified = false → hardLevel k.toNat = none →
                (en.toNat = 0 ∨ lv.toNat = 0 ∨ s.ntu.globalEnable = false ∨ (lv.toNat ≤ 5 ∧ s.ntu.holdOff.isSome = true)) →
                e'.notified = false)
            ∧ Judged s t
            ∧ (∀ j, j ≠ k.toNat → (t.ntu.table[j]?).map (fun e => (e.latched, e.live, e.enable, e.level))
                = (s.ntu.table[j]?).map fun e => (e.latched, e.live, e.enable, e.level))))
  ∧ (∀ (s : State) (tag v : Byte), Serving s .noticeEnable tag [v] →
      (1 < v.toNat → ∃ t, exec .noticeEnable s = .next t ∧ Answered s t tag .badField [] ∧ OnlyReply s t)
      ∧ (v.toNat ≤ 1 → ∃ t, exec .noticeEnable s = .next t ∧ Answered s t tag .ok [v] ∧ OnlyOwnReply s t ∧ t.mtm = s.mtm
          ∧ t.ntu.globalEnable = decide (v.toNat = 1) ∧ t.ntu.holdOff = s.ntu.holdOff ∧ Noticed s t
          ∧ ({ s.ntu with globalEnable := t.ntu.globalEnable }).onlyEvents [] t.ntu
          ∧ (v.toNat = 1 → s.ntu.globalEnable = false → Judged s t)
          ∧ (v.toNat = 0 ∨ s.ntu.globalEnable = true →
              t.ntu.table = s.ntu.table ∧ (s.lki.sending.isSome = true → t.lki.notice = s.lki.notice))
          ∧ (v.toNat = 1 → s.ntu.globalEnable = false → ∀ (k : Nat) (e : EventEntry), s.ntu.table[k]? = some e →
              e.latched = true → e.notified = false → e.enable = true → 1 ≤ e.level →
              6 ≤ e.level ∨ s.ntu.holdOff = none → (t.ntu.table[k]?).map (·.notified) = some true)))

/-- R147, R172: EVENT_READ_CLEAR reports the table as it stands, then clears latched and notified under the mask alone. That the
enables are sent as one set of flags is read from R172 by inference (log entry 14). -/
def Obligations.EventReadClears : Prop :=
  ∀ (s : State) (tag : Byte) (a : List Byte), Serving s .eventReadClear tag a → a.length = 4 →
    ∃ t, exec .eventReadClear s = .next t ∧ OnlyOwnReply s t ∧ t.mtm = s.mtm
      ∧ t.ntu.globalEnable = s.ntu.globalEnable ∧ t.ntu.holdOff = s.ntu.holdOff
      ∧ t.ntu.table.length = s.ntu.table.length
      ∧ (∀ (k : Nat) (e : EventEntry), s.ntu.table[k]? = some e → t.ntu.table[k]? = some
          (if (u32 a 0).testBit k then { e with latched := false, notified := false } else e))
      ∧ Answered s t tag .ok
          (flagSet (s.ntu.table.map (·.latched)) ++ flagSet (s.ntu.table.map (·.live))
            ++ flagSet (s.ntu.table.map (·.notified)) ++ flagSet (s.ntu.table.map (·.enable)) ++ flag s.ntu.globalEnable
            ++ (match s.ntu.holdOff with
                | none => [0#8, 0#8, 0#8]
                | some ms => 1#8 :: le16 ms))

/-- R145: HOLD_NOTICES starts, extends or ends the hold-off, and answers its remaining time. R146: the hold-off ends by its
expiry: it stops, and every eligible entry is notified together, in one NOTICE whose sets, level and merge are as R141 says. -/
def Obligations.HoldOffDelaysNotices : Prop :=
  (∀ (s : State) (tag lo hi : Byte), Serving s .holdNotices tag [lo, hi] →
      let d := lo.toNat + 256 * hi.toNat
      ∃ t, exec .holdNotices s = .next t ∧ OnlyOwnReply s t ∧ t.mtm = s.mtm ∧ Noticed s t
        ∧ t.ntu.holdOff = (match s.ntu.holdOff with
            | none => if d = 0 then none else some d
            | some r => if d = 0 then none else if r < d then some d else some r)
        ∧ ({ s.ntu with holdOff := t.ntu.holdOff }).onlyEvents [] t.ntu
        ∧ (s.ntu.holdOff.isSome = true → d = 0 → Judged s t)
        ∧ (s.ntu.holdOff = none ∨ d ≠ 0 → t.ntu.table = s.ntu.table)
        ∧ (s.ntu.holdOff.isSome = true → d = 0 → ∀ (k : Nat) (e : EventEntry), s.ntu.table[k]? = some e →
            e.latched = true → e.notified = false → e.enable = true → 1 ≤ e.level → s.ntu.globalEnable = true →
            (t.ntu.table[k]?).map (·.notified) = some true)
        ∧ Answered s t tag .ok (match t.ntu.holdOff with
            | none => [0#8, 0#8, 0#8]
            | some ms => 1#8 :: le16 ms))
  ∧ (∀ s : State, s.ntu.holdOff.isSome = true →
      ∃ t, exec .holdOffExpiry s = .next t ∧ t.ntu.holdOff = none
        ∧ ({ s.ntu with holdOff := none }).onlyEvents [] t.ntu ∧ Judged s t ∧ Noticed s t
        ∧ (∀ (k : Nat) (e : EventEntry), s.ntu.table[k]? = some e → e.latched = true → e.notified = false →
            (hardLevel k).isSome = true ∨ (e.enable = true ∧ 1 ≤ e.level ∧ s.ntu.globalEnable = true) →
            (t.ntu.table[k]?).map (·.notified) = some true ∧ (t.lki.notice.isSome = true ∨ s.lki.sending = none))
        ∧ s.lki.onlyNotice t.lki ∧ t.srt = s.srt ∧ t.rqh = s.rqh ∧ t.ppc = s.ppc ∧ t.lmc = s.lmc ∧ t.mtm = s.mtm
        ∧ t.pending = s.pending)

/-- R124, R159: a RESTART in progress is refused with MOTION where RQH took it with the phase copy other than IDLE, whatever the
phase is by then, and nothing else changes; taken in IDLE it is carried out, and a SAMPLE frame finds the state that it leaves.
R9, R47, R65, R48, R84, R97, R105, R122, R136, R139, R149, R160 to R162: what a RESTART carried out returns to its default, what it
keeps, and which events it latches. That it takes effect before a sample that finds it in progress is the model's order (log
entry 29). -/
def Obligations.RestartRestoresAndKeeps : Prop :=
  ∀ (s : State) (tag : Byte), Serving s .restart tag [] →
    (s.rqh.takenIn ≠ .idle → ∃ t, exec .restart s = .next t ∧ Answered s t tag .refused [1#8] ∧ OnlyReply s t)
    ∧ (s.rqh.takenIn = .idle → ∃ t, exec .restart s = .next t
      ∧ ∀ (p : PortId) (f : WireFrame), portFrameGood f = true →
          exec (.sampleFrameReceived p f) s = exec (.sampleFrameReceived p f) t)
    ∧ (s.rqh.takenIn = .idle → s.lki.regime = .attended → ∃ t, exec .restart s = .next t
      ∧ t.lki.replyTrail = s.lki.replyTrail
          ++ [.reply { tag := tag, status := .ok, payload := [BitVec.ofNat 8 s.rqh.queue.length] }]
      ∧ t.rqh = { s.rqh with queue := [], inProgress := none }
      ∧ t.lki.samples = [] ∧ t.lki.linkErrors = 0 ∧ t.lki.silenceTimeout = 30 ∧ t.lki.silenceTimer = some 3000
      ∧ t.lki.regime = .attended ∧ t.lki.rx = s.lki.rx ∧ (s.lki.sending.isSome = true → t.lki.sending = s.lki.sending)
      ∧ (∀ p, t.lki.ports.get p = { s.lki.ports.get p with
            errors := 0, buffer := (s.lki.ports.get p).buffer.filter (·.begun) })
      ∧ t.srt = { table := routeDefaults, unmatched := 0, defaultRoute := true, holding := List.replicate 54 0
                  overrideEntry := none }
      ∧ t.settingsDefault
      ∧ (∀ x, t.ppc.pack x = { s.ppc.pack x with allowance := (t.ppc.pack x).allowance }) ∧ t.ppc.swDc = s.ppc.swDc
      ∧ t.ppc.bridge.switch = s.ppc.bridge.switch ∧ t.ppc.brace = s.ppc.brace ∧ t.ppc.dcinOk = s.ppc.dcinOk
      ∧ t.ppc.settleTimer = s.ppc.settleTimer ∧ t.ppc.regime = s.ppc.regime ∧ t.ppc.settled
      ∧ t.ppc.bridge.last = s.ppc.bridge.last ∧ t.ppc.bridge.fitted = s.ppc.bridge.fitted
      ∧ (s.ppc.safe → t.ppc.bridge = s.ppc.bridge)
      ∧ t.lmc.e = none ∧ t.lmc.lg = none ∧ t.lmc.f = none ∧ t.lmc.valid = false ∧ t.lmc.freeze = false ∧ t.lmc.mode = .fail
      ∧ t.lmc.bias = 0 ∧ t.lmc.forced = none
      ∧ (∀ r, (t.lmc.role r).live = false ∧ (t.lmc.role r).lux = none ∧ (t.lmc.role r).timer = none)
      ∧ ({ Lmc.initial with
            t0 := s.lmc.t0, cPower := s.lmc.cPower, target := s.lmc.target, out := s.lmc.out, regime := s.lmc.regime
            stepTimer := s.lmc.stepTimer }).onlyTarget t.lmc
      ∧ t.lmc.out ≤ s.lmc.out
      ∧ (s.underCeiling → t.lmc.cPower = t.ppc.budget.cPower ∧ t.lmc.out = min s.lmc.out t.ppc.budget.cPower
          ∧ (t.ppc.budget.cPower < s.lmc.out → t.ntu.isLatched .ceilingCut = true)
          ∧ (s.lmc.out ≤ t.ppc.budget.cPower → t.ntu.isLatched .ceilingCut = false))
      ∧ t.mtm = { s.mtm with set := .factory, lowRun := 0, accelIndex := none }
      ∧ t.ntu.table.length = 32 ∧ t.ntu.isLatched .restarted = true ∧ t.ntu.globalEnable = false ∧ t.ntu.holdOff = none
      ∧ (∀ e : Event, e ∉ [Event.restarted, .bridgeExhausted, .ceilingCut, .bridgeAlone, .bridgeLow] →
          t.ntu.isLatched e = false)
      ∧ (∀ (k : Nat) (e : EventEntry), t.ntu.table[k]? = some e →
          e.enable = false ∧ e.level = (hardLevel k).getD 0 ∧ e.live = t.liveOf k
            ∧ (e.notified = true → k = Event.bridgeExhausted.code))
      ∧ (t.ntu.isLatched .bridgeExhausted = false → t.lki.notice = none)
      ∧ (s.ppc.safe → t.lki.notice = none ∧ t.ntu.isLatched .bridgeExhausted = false
          ∧ t.ntu.isLatched .bridgeAlone = false)
      ∧ t.pending = s.pending)

/-! ### Layout -/

/-- R172: the layouts of the settings requests round-trip: the settings read from an argument list, written again, give the
list. No bit of it is dropped. -/
def Obligations.SettingsRoundTrip : Prop :=
  ∀ a : List Byte,
    (a.length = 51 → (PackProfile.ofArgs a).bytes = a) ∧ (a.length = 8 → (PowerSettings.ofArgs a).bytes = a)
    ∧ (a.length = 10 → (BridgeSettings.ofArgs a).bytes = a) ∧ (a.length = 17 → (MotionSettings.ofArgs a).bytes = a)
    ∧ (a.length = 32 → (Gains.ofArgs a 0).bytes ++ (Gains.ofArgs a 8).bytes ++ (LightSettings.ofArgs a).bytes = a)
end

