-- ==== Sys2Proof/Laws/State.lean ====
section
/-! SUPPORT. What each update of one block leaves in each block of the state. -/

namespace Sys2Proof.Machine

@[simp] theorem State.setLki_lki (s : State) (x : Lki) : (s.setLki x).lki = x := rfl
@[simp] theorem State.setLki_srt (s : State) (x : Lki) : (s.setLki x).srt = s.srt := rfl
@[simp] theorem State.setLki_rqh (s : State) (x : Lki) : (s.setLki x).rqh = s.rqh := rfl
@[simp] theorem State.setLki_ppc (s : State) (x : Lki) : (s.setLki x).ppc = s.ppc := rfl
@[simp] theorem State.setLki_lmc (s : State) (x : Lki) : (s.setLki x).lmc = s.lmc := rfl
@[simp] theorem State.setLki_mtm (s : State) (x : Lki) : (s.setLki x).mtm = s.mtm := rfl
@[simp] theorem State.setLki_ntu (s : State) (x : Lki) : (s.setLki x).ntu = s.ntu := rfl
@[simp] theorem State.setLki_pending (s : State) (x : Lki) : (s.setLki x).pending = s.pending := rfl

@[simp] theorem State.setSrt_lki (s : State) (x : Srt) : (s.setSrt x).lki = s.lki := rfl
@[simp] theorem State.setSrt_srt (s : State) (x : Srt) : (s.setSrt x).srt = x := rfl
@[simp] theorem State.setSrt_rqh (s : State) (x : Srt) : (s.setSrt x).rqh = s.rqh := rfl
@[simp] theorem State.setSrt_ppc (s : State) (x : Srt) : (s.setSrt x).ppc = s.ppc := rfl
@[simp] theorem State.setSrt_lmc (s : State) (x : Srt) : (s.setSrt x).lmc = s.lmc := rfl
@[simp] theorem State.setSrt_mtm (s : State) (x : Srt) : (s.setSrt x).mtm = s.mtm := rfl
@[simp] theorem State.setSrt_ntu (s : State) (x : Srt) : (s.setSrt x).ntu = s.ntu := rfl
@[simp] theorem State.setSrt_pending (s : State) (x : Srt) : (s.setSrt x).pending = s.pending := rfl

@[simp] theorem State.setRqh_lki (s : State) (x : Rqh) : (s.setRqh x).lki = s.lki := rfl
@[simp] theorem State.setRqh_srt (s : State) (x : Rqh) : (s.setRqh x).srt = s.srt := rfl
@[simp] theorem State.setRqh_rqh (s : State) (x : Rqh) : (s.setRqh x).rqh = x := rfl
@[simp] theorem State.setRqh_ppc (s : State) (x : Rqh) : (s.setRqh x).ppc = s.ppc := rfl
@[simp] theorem State.setRqh_lmc (s : State) (x : Rqh) : (s.setRqh x).lmc = s.lmc := rfl
@[simp] theorem State.setRqh_mtm (s : State) (x : Rqh) : (s.setRqh x).mtm = s.mtm := rfl
@[simp] theorem State.setRqh_ntu (s : State) (x : Rqh) : (s.setRqh x).ntu = s.ntu := rfl
@[simp] theorem State.setRqh_pending (s : State) (x : Rqh) : (s.setRqh x).pending = s.pending := rfl

@[simp] theorem State.setPpc_lki (s : State) (x : Ppc) : (s.setPpc x).lki = s.lki := rfl
@[simp] theorem State.setPpc_srt (s : State) (x : Ppc) : (s.setPpc x).srt = s.srt := rfl
@[simp] theorem State.setPpc_rqh (s : State) (x : Ppc) : (s.setPpc x).rqh = s.rqh := rfl
@[simp] theorem State.setPpc_ppc (s : State) (x : Ppc) : (s.setPpc x).ppc = x := rfl
@[simp] theorem State.setPpc_lmc (s : State) (x : Ppc) : (s.setPpc x).lmc = s.lmc := rfl
@[simp] theorem State.setPpc_mtm (s : State) (x : Ppc) : (s.setPpc x).mtm = s.mtm := rfl
@[simp] theorem State.setPpc_ntu (s : State) (x : Ppc) : (s.setPpc x).ntu = s.ntu := rfl
@[simp] theorem State.setPpc_pending (s : State) (x : Ppc) : (s.setPpc x).pending = s.pending := rfl

@[simp] theorem State.setLmc_lki (s : State) (x : Lmc) : (s.setLmc x).lki = s.lki := rfl
@[simp] theorem State.setLmc_srt (s : State) (x : Lmc) : (s.setLmc x).srt = s.srt := rfl
@[simp] theorem State.setLmc_rqh (s : State) (x : Lmc) : (s.setLmc x).rqh = s.rqh := rfl
@[simp] theorem State.setLmc_ppc (s : State) (x : Lmc) : (s.setLmc x).ppc = s.ppc := rfl
@[simp] theorem State.setLmc_lmc (s : State) (x : Lmc) : (s.setLmc x).lmc = x := rfl
@[simp] theorem State.setLmc_mtm (s : State) (x : Lmc) : (s.setLmc x).mtm = s.mtm := rfl
@[simp] theorem State.setLmc_ntu (s : State) (x : Lmc) : (s.setLmc x).ntu = s.ntu := rfl
@[simp] theorem State.setLmc_pending (s : State) (x : Lmc) : (s.setLmc x).pending = s.pending := rfl

@[simp] theorem State.setMtm_lki (s : State) (x : Mtm) : (s.setMtm x).lki = s.lki := rfl
@[simp] theorem State.setMtm_srt (s : State) (x : Mtm) : (s.setMtm x).srt = s.srt := rfl
@[simp] theorem State.setMtm_rqh (s : State) (x : Mtm) : (s.setMtm x).rqh = s.rqh := rfl
@[simp] theorem State.setMtm_ppc (s : State) (x : Mtm) : (s.setMtm x).ppc = s.ppc := rfl
@[simp] theorem State.setMtm_lmc (s : State) (x : Mtm) : (s.setMtm x).lmc = s.lmc := rfl
@[simp] theorem State.setMtm_mtm (s : State) (x : Mtm) : (s.setMtm x).mtm = x := rfl
@[simp] theorem State.setMtm_ntu (s : State) (x : Mtm) : (s.setMtm x).ntu = s.ntu := rfl
@[simp] theorem State.setMtm_pending (s : State) (x : Mtm) : (s.setMtm x).pending = s.pending := rfl

@[simp] theorem State.setNtu_lki (s : State) (x : Ntu) : (s.setNtu x).lki = s.lki := rfl
@[simp] theorem State.setNtu_srt (s : State) (x : Ntu) : (s.setNtu x).srt = s.srt := rfl
@[simp] theorem State.setNtu_rqh (s : State) (x : Ntu) : (s.setNtu x).rqh = s.rqh := rfl
@[simp] theorem State.setNtu_ppc (s : State) (x : Ntu) : (s.setNtu x).ppc = s.ppc := rfl
@[simp] theorem State.setNtu_lmc (s : State) (x : Ntu) : (s.setNtu x).lmc = s.lmc := rfl
@[simp] theorem State.setNtu_mtm (s : State) (x : Ntu) : (s.setNtu x).mtm = s.mtm := rfl
@[simp] theorem State.setNtu_ntu (s : State) (x : Ntu) : (s.setNtu x).ntu = x := rfl
@[simp] theorem State.setNtu_pending (s : State) (x : Ntu) : (s.setNtu x).pending = s.pending := rfl

@[simp] theorem State.setPending_lki (s : State) (x : List Instr) : (s.setPending x).lki = s.lki := rfl
@[simp] theorem State.setPending_srt (s : State) (x : List Instr) : (s.setPending x).srt = s.srt := rfl
@[simp] theorem State.setPending_rqh (s : State) (x : List Instr) : (s.setPending x).rqh = s.rqh := rfl
@[simp] theorem State.setPending_ppc (s : State) (x : List Instr) : (s.setPending x).ppc = s.ppc := rfl
@[simp] theorem State.setPending_lmc (s : State) (x : List Instr) : (s.setPending x).lmc = s.lmc := rfl
@[simp] theorem State.setPending_mtm (s : State) (x : List Instr) : (s.setPending x).mtm = s.mtm := rfl
@[simp] theorem State.setPending_ntu (s : State) (x : List Instr) : (s.setPending x).ntu = s.ntu := rfl
@[simp] theorem State.setPending_pending (s : State) (x : List Instr) : (s.setPending x).pending = x := rfl

/-- States are equal when their blocks are. -/
theorem State.ext_blocks (s t : State) (h1 : s.lki = t.lki) (h2 : s.srt = t.srt) (h3 : s.rqh = t.rqh) (h4 : s.ppc = t.ppc)
    (h5 : s.lmc = t.lmc) (h6 : s.mtm = t.mtm) (h7 : s.ntu = t.ntu) (h8 : s.pending = t.pending) : s = t := by
  cases s
  cases t
  simp_all

end Sys2Proof.Machine
end

