-- ==== Sys2Proof/Laws/Link.lean ====
section
/-! SUPPORT. What the transmitter, RQH's taking of a request and the placing of a reply can do. -/

namespace Sys2Proof.Machine

/-! ### The transmitter -/

/-- All that `transmit` does: nothing, or one of the three takings of R166. -/
theorem Lki.transmit_cases (l : Lki) :
    (l.sending.isSome = true ∧ l.transmit = l)
      ∨ (l.sending = none ∧ ∃ n, l.notice = some n ∧ l.transmit = { l with sending := some (.notice n), notice := none })
      ∨ (l.sending = none ∧ l.notice = none ∧ ∃ x rest, l.stream = x :: rest
          ∧ l.transmit = { l with sending := some x.frame, stream := rest })
      ∨ (l.sending = none ∧ l.notice = none ∧ l.stream = [] ∧ ∃ x rest, l.samples = x :: rest
          ∧ l.transmit = { l with sending := some (.sample x), samples := rest })
      ∨ (l.sending = none ∧ l.notice = none ∧ l.stream = [] ∧ l.samples = [] ∧ l.transmit = l) := by
  unfold Lki.transmit
  split
  · next h => exact .inl ⟨by simp [h], rfl⟩
  · next h =>
    split
    · next n hn => exact .inr (.inl ⟨h, n, hn, rfl⟩)
    · next hn =>
      split
      · next x rest hs => exact .inr (.inr (.inl ⟨h, hn, x, rest, hs, rfl⟩))
      · next hs =>
        split
        · next x rest hx => exact .inr (.inr (.inr (.inl ⟨h, hn, hs, x, rest, hx, rfl⟩)))
        · next hx => exact .inr (.inr (.inr (.inr ⟨h, hn, hs, hx, rfl⟩)))

theorem Lki.transmit_of_sending (l : Lki) (h : l.sending.isSome = true) : l.transmit = l := by
  rcases l.transmit_cases with h1 | h1 | h1 | h1 | h1 <;> simp_all

theorem Lki.transmit_notice (l : Lki) (n : Notice) (h : l.sending = none) (hn : l.notice = some n) :
    l.transmit = { l with sending := some (.notice n), notice := none } := by
  simp [Lki.transmit, h, hn]

@[simp] theorem Lki.transmit_rx (l : Lki) : l.transmit.rx = l.rx := by
  rcases l.transmit_cases with ⟨_, h⟩ | ⟨_, _, _, h⟩ | ⟨_, _, _, _, _, h⟩ | ⟨_, _, _, _, _, _, h⟩ | ⟨_, _, _, _, h⟩ <;> simp [h]
@[simp] theorem Lki.transmit_linkErrors (l : Lki) : l.transmit.linkErrors = l.linkErrors := by
  rcases l.transmit_cases with ⟨_, h⟩ | ⟨_, _, _, h⟩ | ⟨_, _, _, _, _, h⟩ | ⟨_, _, _, _, _, _, h⟩ | ⟨_, _, _, _, h⟩ <;> simp [h]
@[simp] theorem Lki.transmit_regime (l : Lki) : l.transmit.regime = l.regime := by
  rcases l.transmit_cases with ⟨_, h⟩ | ⟨_, _, _, h⟩ | ⟨_, _, _, _, _, h⟩ | ⟨_, _, _, _, _, _, h⟩ | ⟨_, _, _, _, h⟩ <;> simp [h]
@[simp] theorem Lki.transmit_silenceTimeout (l : Lki) : l.transmit.silenceTimeout = l.silenceTimeout := by
  rcases l.transmit_cases with ⟨_, h⟩ | ⟨_, _, _, h⟩ | ⟨_, _, _, _, _, h⟩ | ⟨_, _, _, _, _, _, h⟩ | ⟨_, _, _, _, h⟩ <;> simp [h]
@[simp] theorem Lki.transmit_silenceTimer (l : Lki) : l.transmit.silenceTimer = l.silenceTimer := by
  rcases l.transmit_cases with ⟨_, h⟩ | ⟨_, _, _, h⟩ | ⟨_, _, _, _, _, h⟩ | ⟨_, _, _, _, _, _, h⟩ | ⟨_, _, _, _, h⟩ <;> simp [h]
@[simp] theorem Lki.transmit_ports (l : Lki) : l.transmit.ports = l.ports := by
  rcases l.transmit_cases with ⟨_, h⟩ | ⟨_, _, _, h⟩ | ⟨_, _, _, _, _, h⟩ | ⟨_, _, _, _, _, _, h⟩ | ⟨_, _, _, _, h⟩ <;> simp [h]

/-- A place of the stream is sent as a reply. -/
theorem StreamItem.frame_reply (x : StreamItem) : ∃ r, x.frame = .reply r := by
  cases x <;> simp [StreamItem.frame]

/-- The order of the replies is the order of their placing (R151). -/
@[simp] theorem Lki.transmit_replyTrail (l : Lki) : l.transmit.replyTrail = l.replyTrail := by
  rcases l.transmit_cases with ⟨_, h⟩ | ⟨h1, n, _, h⟩ | ⟨h1, _, x, rest, hs, h⟩ | ⟨h1, _, hs, _, _, _, h⟩ | ⟨_, _, _, _, h⟩
  · rw [h]
  · simp [h, Lki.replyTrail, h1]
  · obtain ⟨r, hr⟩ := x.frame_reply
    simp [h, Lki.replyTrail, h1, hs, hr]
  · simp [h, Lki.replyTrail, h1, hs]
  · rw [h]

theorem Lki.transmit_replyCount_le (l : Lki) : l.transmit.replyCount ≤ l.replyCount := by
  rcases l.transmit_cases with ⟨_, h⟩ | ⟨_, _, _, h⟩ | ⟨_, _, x, rest, hs, h⟩ | ⟨_, _, _, _, _, _, h⟩ | ⟨_, _, _, _, h⟩
  · rw [h]
  · rw [h]; exact Nat.le_refl _
  · rw [h]; simp only [Lki.replyCount, hs, List.countP_cons]; exact Nat.le_add_right _ _
  · rw [h]; exact Nat.le_refl _
  · rw [h]

theorem Lki.transmit_busyCount_le (l : Lki) : l.transmit.busyCount ≤ l.busyCount := by
  rcases l.transmit_cases with ⟨_, h⟩ | ⟨_, _, _, h⟩ | ⟨_, _, x, rest, hs, h⟩ | ⟨_, _, _, _, _, _, h⟩ | ⟨_, _, _, _, h⟩
  · rw [h]
  · rw [h]; exact Nat.le_refl _
  · rw [h]; simp only [Lki.busyCount, hs, List.countP_cons]; exact Nat.le_add_right _ _
  · rw [h]; exact Nat.le_refl _
  · rw [h]

theorem Lki.transmit_samples_le (l : Lki) : l.transmit.samples.length ≤ l.samples.length := by
  rcases l.transmit_cases with ⟨_, h⟩ | ⟨_, _, _, h⟩ | ⟨_, _, _, _, _, h⟩ | ⟨_, _, _, x, rest, hs, h⟩ | ⟨_, _, _, _, h⟩
    <;> simp_all

/-- After the transmitter took what it may, an idle transmitter has nothing to send (R166). -/
theorem Lki.transmit_idle (l : Lki) (h : l.transmit.sending = none) :
    l.transmit.notice = none ∧ l.transmit.stream = [] ∧ l.transmit.samples = [] := by
  rcases l.transmit_cases with ⟨h1, h2⟩ | ⟨_, _, _, h2⟩ | ⟨_, _, _, _, _, h2⟩ | ⟨_, _, _, _, _, _, h2⟩ | ⟨_, h3, h4, h5, h2⟩
    <;> simp_all

/-- Where the stream is not empty, a taking leaves the samples alone. -/
theorem Lki.transmit_samples_of_stream (l : Lki) (h : l.stream ≠ []) : l.transmit.samples = l.samples := by
  rcases l.transmit_cases with ⟨_, h2⟩ | ⟨_, _, _, h2⟩ | ⟨_, _, _, _, _, h2⟩ | ⟨_, _, h3, _, _, _, h2⟩ | ⟨_, _, h3, _, h2⟩
    <;> simp_all

/-! ### RQH takes a request -/

/-- All that `takeRequest` does (R152). -/
theorem State.takeRequest_cases (s : State) :
    (∃ r rest, s.rqh.inProgress = none ∧ s.rqh.queue = r :: rest ∧ s.lki.replyCount < Config.replyPlaces
        ∧ (r.code = RequestCode.restart.byte → s.lki.stream = [])
        ∧ s.takeRequest = s.setRqh { s.rqh with queue := rest, inProgress := some r, takenIn := s.rqh.phaseCopy })
      ∨ (s.takeRequest = s ∧ (s.rqh.inProgress = none → s.headWaits)) := by
  unfold State.takeRequest
  split
  · next r rest h1 h2 =>
    split
    · next h =>
      refine .inl ⟨r, rest, h1, h2, ?_, ?_, rfl⟩
      · simp at h; exact h.1
      · intro hc; simp [hc] at h; exact h.2
    · next h =>
      refine .inr ⟨rfl, fun _ r' rest' hq => ?_⟩
      rw [h2] at hq
      injection hq with h3 h4
      subst h3
      by_cases hc : r.code = RequestCode.restart.byte
      · by_cases hs : s.lki.stream = []
        · left; simp [hc, hs] at h; exact h
        · exact .inr ⟨hc, hs⟩
      · left; simp [hc] at h; exact h
  · next h =>
    refine .inr ⟨rfl, fun h1 r rest h2 => absurd h2 (h r rest h1)⟩

@[simp] theorem State.takeRequest_lki (s : State) : s.takeRequest.lki = s.lki := by
  rcases s.takeRequest_cases with ⟨_, _, _, _, _, _, h⟩ | ⟨h, _⟩ <;> simp [h]
@[simp] theorem State.takeRequest_srt (s : State) : s.takeRequest.srt = s.srt := by
  rcases s.takeRequest_cases with ⟨_, _, _, _, _, _, h⟩ | ⟨h, _⟩ <;> simp [h]
@[simp] theorem State.takeRequest_ppc (s : State) : s.takeRequest.ppc = s.ppc := by
  rcases s.takeRequest_cases with ⟨_, _, _, _, _, _, h⟩ | ⟨h, _⟩ <;> simp [h]
@[simp] theorem State.takeRequest_lmc (s : State) : s.takeRequest.lmc = s.lmc := by
  rcases s.takeRequest_cases with ⟨_, _, _, _, _, _, h⟩ | ⟨h, _⟩ <;> simp [h]
@[simp] theorem State.takeRequest_mtm (s : State) : s.takeRequest.mtm = s.mtm := by
  rcases s.takeRequest_cases with ⟨_, _, _, _, _, _, h⟩ | ⟨h, _⟩ <;> simp [h]
@[simp] theorem State.takeRequest_ntu (s : State) : s.takeRequest.ntu = s.ntu := by
  rcases s.takeRequest_cases with ⟨_, _, _, _, _, _, h⟩ | ⟨h, _⟩ <;> simp [h]
@[simp] theorem State.takeRequest_pending (s : State) : s.takeRequest.pending = s.pending := by
  rcases s.takeRequest_cases with ⟨_, _, _, _, _, _, h⟩ | ⟨h, _⟩ <;> simp [h]
@[simp] theorem State.takeRequest_phaseCopy (s : State) : s.takeRequest.rqh.phaseCopy = s.rqh.phaseCopy := by
  rcases s.takeRequest_cases with ⟨_, _, _, _, _, _, h⟩ | ⟨h, _⟩ <;> simp [h]

/-- Taking a request keeps the requests and their order. -/
@[simp] theorem State.takeRequest_waiting (s : State) : s.takeRequest.rqh.waiting = s.rqh.waiting := by
  rcases s.takeRequest_cases with ⟨r, rest, h1, h2, _, _, h⟩ | ⟨h, _⟩
  · simp [h, Rqh.waiting, h1, h2]
  · rw [h]

/-- RQH takes its head unless that one must wait (R152). -/
theorem State.takeRequest_headWaits (s : State) (hn : s.takeRequest.rqh.inProgress = none) : s.takeRequest.headWaits := by
  rcases s.takeRequest_cases with ⟨_, _, _, _, _, _, h⟩ | ⟨h, hw⟩
  · simp [h] at hn
  · rw [h] at hn ⊢; exact hw hn

/-- A request is taken with the phase copy of its taking (R124). -/
theorem State.takeRequest_takenIn (s : State) (hn : s.rqh.inProgress = none) (hs : s.takeRequest.rqh.inProgress.isSome = true) :
    s.takeRequest.rqh.takenIn = s.rqh.phaseCopy := by
  rcases s.takeRequest_cases with ⟨_, _, _, _, _, _, h⟩ | ⟨h, _⟩
  · simp [h]
  · simp [h, hn] at hs

/-- No request is taken while one is in progress (R152). -/
theorem State.takeRequest_busy (s : State) (h : s.rqh.inProgress.isSome = true) : s.takeRequest = s := by
  rcases s.takeRequest_cases with ⟨_, _, hn, _⟩ | ⟨hs, _⟩
  · simp [hn] at h
  · exact hs

/-! ### Pump -/

@[simp] theorem State.pump_lki (s : State) : s.pump.lki = s.lki.transmit := by simp [State.pump]
@[simp] theorem State.pump_srt (s : State) : s.pump.srt = s.srt := by simp [State.pump]
@[simp] theorem State.pump_ppc (s : State) : s.pump.ppc = s.ppc := by simp [State.pump]
@[simp] theorem State.pump_lmc (s : State) : s.pump.lmc = s.lmc := by simp [State.pump]
@[simp] theorem State.pump_mtm (s : State) : s.pump.mtm = s.mtm := by simp [State.pump]
@[simp] theorem State.pump_ntu (s : State) : s.pump.ntu = s.ntu := by simp [State.pump]
@[simp] theorem State.pump_pending (s : State) : s.pump.pending = s.pending := by simp [State.pump]
@[simp] theorem State.pump_phaseCopy (s : State) : s.pump.rqh.phaseCopy = s.rqh.phaseCopy := by simp [State.pump]
@[simp] theorem State.pump_waiting (s : State) : s.pump.rqh.waiting = s.rqh.waiting := by simp [State.pump]

/-! ### The placing of a reply -/

@[simp] theorem State.answer_srt (s : State) (g : Byte) (st : Status) (p : List Byte) : (s.answer g st p).srt = s.srt := by
  simp [State.answer]
@[simp] theorem State.answer_ppc (s : State) (g : Byte) (st : Status) (p : List Byte) : (s.answer g st p).ppc = s.ppc := by
  simp [State.answer]
@[simp] theorem State.answer_lmc (s : State) (g : Byte) (st : Status) (p : List Byte) : (s.answer g st p).lmc = s.lmc := by
  simp [State.answer]
@[simp] theorem State.answer_mtm (s : State) (g : Byte) (st : Status) (p : List Byte) : (s.answer g st p).mtm = s.mtm := by
  simp [State.answer]
@[simp] theorem State.answer_ntu (s : State) (g : Byte) (st : Status) (p : List Byte) : (s.answer g st p).ntu = s.ntu := by
  simp [State.answer]
@[simp] theorem State.answer_pending (s : State) (g : Byte) (st : Status) (p : List Byte) :
    (s.answer g st p).pending = s.pending := by
  simp [State.answer]
@[simp] theorem State.answer_phaseCopy (s : State) (g : Byte) (st : Status) (p : List Byte) :
    (s.answer g st p).rqh.phaseCopy = s.rqh.phaseCopy := by
  simp [State.answer]
@[simp] theorem State.answer_waiting (s : State) (g : Byte) (st : Status) (p : List Byte) :
    (s.answer g st p).rqh.waiting = s.rqh.queue := by
  unfold State.answer
  rw [State.pump_waiting]
  simp [Rqh.waiting]

/-- A placing adds to the end of the trail. -/
@[simp] theorem Lki.place_replyTrail (l : Lki) (x : StreamItem) : (l.place x).replyTrail = l.replyTrail ++ [x.frame] := by
  simp only [Lki.replyTrail, Lki.place, List.map_append, List.map_cons, List.map_nil, List.append_assoc]

/-- LKI after the placing of a reply. -/
theorem State.answer_lki (s : State) (g : Byte) (st : Status) (p : List Byte) :
    (s.answer g st p).lki = (s.lki.place (StreamItem.reply { tag := g, status := st, payload := p })).transmit := by
  simp [State.answer]

/-- The reply stands last. -/
@[simp] theorem State.answer_replyTrail (s : State) (g : Byte) (st : Status) (p : List Byte) :
    (s.answer g st p).lki.replyTrail
      = s.lki.replyTrail ++ [OutFrame.reply { tag := g, status := st, payload := p }] := by
  simp only [State.answer_lki, Lki.transmit_replyTrail, Lki.place_replyTrail, StreamItem.frame]

/-- A placing and the taking after it change only the northbound part of LKI. -/
theorem Lki.place_onlyNorth (l : Lki) (x : StreamItem) : l.onlyNorth (l.place x).transmit := by
  refine ⟨?_, fun h => ?_⟩
  · rcases (l.place x).transmit_cases with
      ⟨_, h⟩ | ⟨_, _, _, h⟩ | ⟨_, _, _, _, _, h⟩ | ⟨_, _, h1, _⟩ | ⟨_, _, h1, _⟩
    · rw [h]; rfl
    · rw [h]; rfl
    · rw [h]; rfl
    · simp [Lki.place] at h1
    · simp [Lki.place] at h1
  · rw [Lki.transmit_of_sending _ (by simpa [Lki.place] using h)]
    rfl

/-- A reply changes only the northbound part of LKI. -/
theorem State.answer_onlyNorth (s : State) (g : Byte) (st : Status) (p : List Byte) :
    s.lki.onlyNorth (s.answer g st p).lki := by
  rw [State.answer_lki]
  exact Lki.place_onlyNorth _ _

/-- The reply to the request in progress (R154). -/
theorem State.answered (s : State) (g : Byte) (st : Status) (p : List Byte) : Answered s (s.answer g st p) g st p := by
  refine ⟨by simp, by simp, by simp, State.takeRequest_headWaits _, fun h => ?_⟩
  exact (State.takeRequest_takenIn _ (by simp) h).trans (by simp)

/-! ### The serving of a request -/

/-- The request in progress with the right length and no reserved bit goes to its owner. -/
theorem State.serve_ok (s : State) (c : RequestCode) (owner : List Byte → State → Answer) (g : Byte) (a : List Byte)
    (h : s.rqh.inProgress = some { tag := g, code := c.byte, args := a }) (hl : c.lengthOk a = true)
    (hr : c.reservedSet a = false) :
    s.serve c owner = (owner a s).state.answer g (owner a s).status (owner a s).payload := by
  simp [State.serve, h, hl, hr]

/-- A wrong argument length is answered BAD_LENGTH (R153). -/
theorem State.serve_badLength (s : State) (c : RequestCode) (owner : List Byte → State → Answer) (g : Byte)
    (a : List Byte) (h : s.rqh.inProgress = some { tag := g, code := c.byte, args := a }) (hl : c.lengthOk a = false) :
    s.serve c owner = s.answer g .badLength [] := by
  simp [State.serve, h, hl]

/-- A reserved bit is answered BAD_FIELD (R153). -/
theorem State.serve_badField (s : State) (c : RequestCode) (owner : List Byte → State → Answer) (g : Byte)
    (a : List Byte) (h : s.rqh.inProgress = some { tag := g, code := c.byte, args := a }) (hl : c.lengthOk a = true)
    (hr : c.reservedSet a = true) :
    s.serve c owner = s.answer g .badField [] := by
  simp [State.serve, h, hl, hr]

/-- All that `serve` does: nothing, a reply of the two checks, or the owner's event with its reply. -/
theorem State.serve_cases (s : State) (c : RequestCode) (owner : List Byte → State → Answer) :
    s.serve c owner = s
      ∨ ∃ r, s.rqh.inProgress = some r ∧ r.code = c.byte
          ∧ (s.serve c owner = s.answer r.tag .badLength [] ∨ s.serve c owner = s.answer r.tag .badField []
              ∨ s.serve c owner = (owner r.args s).state.answer r.tag (owner r.args s).status (owner r.args s).payload) := by
  unfold State.serve
  split
  · exact .inl rfl
  · next r h =>
    by_cases hc : r.code = c.byte
    · refine .inr ⟨r, h, hc, ?_⟩
      by_cases hl : c.lengthOk r.args = true
      · by_cases hr : c.reservedSet r.args = true
        · simp [hc, hl, hr]
        · simp [hc, hl, hr]
      · simp [hc, hl]
    · left; simp [hc]

/-! ### What a placed reply leaves of LKI -/

@[simp] theorem State.answer_rx (s : State) (g : Byte) (st : Status) (p : List Byte) :
    (s.answer g st p).lki.rx = s.lki.rx := by
  rw [(s.answer_onlyNorth g st p).1]
@[simp] theorem State.answer_linkErrors (s : State) (g : Byte) (st : Status) (p : List Byte) :
    (s.answer g st p).lki.linkErrors = s.lki.linkErrors := by
  rw [(s.answer_onlyNorth g st p).1]
@[simp] theorem State.answer_regime (s : State) (g : Byte) (st : Status) (p : List Byte) :
    (s.answer g st p).lki.regime = s.lki.regime := by
  rw [(s.answer_onlyNorth g st p).1]
@[simp] theorem State.answer_silenceTimeout (s : State) (g : Byte) (st : Status) (p : List Byte) :
    (s.answer g st p).lki.silenceTimeout = s.lki.silenceTimeout := by
  rw [(s.answer_onlyNorth g st p).1]
@[simp] theorem State.answer_silenceTimer (s : State) (g : Byte) (st : Status) (p : List Byte) :
    (s.answer g st p).lki.silenceTimer = s.lki.silenceTimer := by
  rw [(s.answer_onlyNorth g st p).1]
@[simp] theorem State.answer_samples (s : State) (g : Byte) (st : Status) (p : List Byte) :
    (s.answer g st p).lki.samples = s.lki.samples := by
  rw [(s.answer_onlyNorth g st p).1]
@[simp] theorem State.answer_ports (s : State) (g : Byte) (st : Status) (p : List Byte) :
    (s.answer g st p).lki.ports = s.lki.ports := by
  rw [(s.answer_onlyNorth g st p).1]

/-- A request whose owner leaves the reply stream and RQH alone is answered with what the owner gives (R154). -/
theorem State.serve_answered (s : State) (c : RequestCode) (owner : List Byte → State → Answer) (g : Byte) (a : List Byte)
    (h : Serving s c g a) (hl : c.lengthOk a = true) (hr : c.reservedSet a = false)
    (ht : (owner a s).state.lki.replyTrail = s.lki.replyTrail) (hq : (owner a s).state.rqh = s.rqh) :
    Answered s (s.serve c owner) g (owner a s).status (owner a s).payload := by
  rw [State.serve_ok s c owner g a h hl hr]
  obtain ⟨h1, h2, h3, h4, h5⟩ := State.answered (owner a s).state g (owner a s).status (owner a s).payload
  exact ⟨h1.trans (by rw [ht]), h2.trans (by rw [hq]), h3.trans (by rw [hq]), h4, fun h => (h5 h).trans (by rw [hq])⟩

/-- A request whose owner leaves the state alone is answered and changes nothing else (R153, R154). -/
theorem State.serve_only (s : State) (c : RequestCode) (owner : List Byte → State → Answer) (g : Byte) (a : List Byte)
    (st : Status) (p : List Byte) (h : Serving s c g a) (hl : c.lengthOk a = true) (hr : c.reservedSet a = false)
    (ho : owner a s = ⟨s, st, p⟩) : Answered s (s.serve c owner) g st p ∧ OnlyReply s (s.serve c owner) := by
  rw [State.serve_ok s c owner g a h hl hr, ho]
  exact ⟨State.answered _ _ _ _, State.answer_onlyNorth _ _ _ _, by simp⟩

/-- A code byte names one request. -/
theorem RequestCode.byte_injective (a b : RequestCode) (h : a.byte = b.byte) : a = b := by
  revert h
  cases a <;> cases b <;> decide

end Sys2Proof.Machine
end

