-- ==== Sys2Proof/Laws/Notices.lean ====
section
/-! SUPPORT. What the raising of events and the judging of eligibility can do. -/

namespace Sys2Proof.Machine

/-! ### The event table -/

@[simp] theorem Ntu.occur_globalEnable (n : Ntu) (c : List Nat) : (n.occur c).globalEnable = n.globalEnable := rfl
@[simp] theorem Ntu.occur_holdOff (n : Ntu) (c : List Nat) : (n.occur c).holdOff = n.holdOff := rfl
@[simp] theorem Ntu.setLive_globalEnable (n : Ntu) (c : List (Nat × Bool)) : (n.setLive c).globalEnable = n.globalEnable := rfl
@[simp] theorem Ntu.setLive_holdOff (n : Ntu) (c : List (Nat × Bool)) : (n.setLive c).holdOff = n.holdOff := rfl
@[simp] theorem Ntu.markNotified_globalEnable (n : Ntu) : n.markNotified.globalEnable = n.globalEnable := rfl
@[simp] theorem Ntu.markNotified_holdOff (n : Ntu) : n.markNotified.holdOff = n.holdOff := rfl

/-- An entry after an occurrence (R138). -/
theorem Ntu.occur_entry (n : Ntu) (c : List Nat) (k : Nat) :
    (n.occur c).table[k]? = (n.table[k]?).map fun e => if c.contains k then { e with latched := true } else e := by
  simp [Ntu.occur]

/-- An entry after a delivery of conditions (R139). -/
theorem Ntu.setLive_entry (n : Ntu) (c : List (Nat × Bool)) (k : Nat) :
    (n.setLive c).table[k]? = (n.table[k]?).map fun e => { e with live := (c.lookup k).getD e.live } := by
  simp only [Ntu.setLive, List.getElem?_mapIdx]
  congr 1
  funext e
  cases c.lookup k <;> rfl

/-- An entry after the marking of the eligible entries (R141). -/
theorem Ntu.markNotified_entry (n : Ntu) (k : Nat) :
    n.markNotified.table[k]? = (n.table[k]?).map fun e => { e with notified := e.notified || n.eligible k e } := by
  simp only [Ntu.markNotified, List.getElem?_mapIdx]
  congr 1
  funext e
  by_cases h : n.eligible k e = true <;> simp [h]

@[simp] theorem Ntu.occur_length (n : Ntu) (c : List Nat) : (n.occur c).table.length = n.table.length := by
  simp [Ntu.occur]
@[simp] theorem Ntu.setLive_length (n : Ntu) (c : List (Nat × Bool)) : (n.setLive c).table.length = n.table.length := by
  simp [Ntu.setLive]
@[simp] theorem Ntu.markNotified_length (n : Ntu) : n.markNotified.table.length = n.table.length := by
  simp [Ntu.markNotified]

/-! ### Judging -/

/-- All that `judge` does: nothing, or a NOTICE is placed or merged and the eligible entries are marked (R140, R141). -/
theorem State.judge_cases (s : State) :
    (s.ntu.eligibleLevels = [] ∧ s.judge = s)
      ∨ ∃ n, s.judge = (s.setNtu s.ntu.markNotified).setLki { s.lki with notice := some n }.transmit := by
  unfold State.judge
  split
  · next h => exact .inl ⟨h, rfl⟩
  · exact .inr ⟨_, rfl⟩

/-- The NOTICE of a judgement with eligible entries: the sets as they then stand, the highest level, merged with one that
waits (R141). -/
theorem State.judge_places (s : State) (l : Nat) (ls : List Nat) (h : s.ntu.eligibleLevels = l :: ls) :
    s.judge = (s.setNtu s.ntu.markNotified).setLki
      { s.lki with notice := some (mergeNotice s.lki.notice (s.ntu.notice (ls.foldl max l))) }.transmit := by
  rw [State.judge, h]

@[simp] theorem State.judge_srt (s : State) : s.judge.srt = s.srt := by
  rcases s.judge_cases with ⟨_, h⟩ | ⟨_, h⟩ <;> simp [h]
@[simp] theorem State.judge_rqh (s : State) : s.judge.rqh = s.rqh := by
  rcases s.judge_cases with ⟨_, h⟩ | ⟨_, h⟩ <;> simp [h]
@[simp] theorem State.judge_ppc (s : State) : s.judge.ppc = s.ppc := by
  rcases s.judge_cases with ⟨_, h⟩ | ⟨_, h⟩ <;> simp [h]
@[simp] theorem State.judge_lmc (s : State) : s.judge.lmc = s.lmc := by
  rcases s.judge_cases with ⟨_, h⟩ | ⟨_, h⟩ <;> simp [h]
@[simp] theorem State.judge_mtm (s : State) : s.judge.mtm = s.mtm := by
  rcases s.judge_cases with ⟨_, h⟩ | ⟨_, h⟩ <;> simp [h]
@[simp] theorem State.judge_pending (s : State) : s.judge.pending = s.pending := by
  rcases s.judge_cases with ⟨_, h⟩ | ⟨_, h⟩ <;> simp [h]

/-- A waiting NOTICE is the first thing an idle transmitter takes, so judging touches nothing else of LKI. -/
theorem Lki.notice_onlyNotice (l : Lki) (n : Notice) : l.onlyNotice { l with notice := some n }.transmit := by
  rcases Lki.transmit_cases { l with notice := some n } with ⟨_, h⟩ | ⟨h1, _, _, h⟩ | ⟨_, h1, _⟩ | ⟨_, h1, _⟩ | ⟨_, h1, _⟩
  · rw [h]; exact ⟨rfl, .inl rfl⟩
  · rw [h]; exact ⟨rfl, .inr ⟨h1, _, rfl⟩⟩
  · simp at h1
  · simp at h1
  · simp at h1

theorem Lki.onlyNotice_refl (l : Lki) : l.onlyNotice l := ⟨rfl, .inl rfl⟩

theorem Lki.onlyNotice_trans {a b c : Lki} (h1 : a.onlyNotice b) (h2 : b.onlyNotice c) : a.onlyNotice c := by
  refine ⟨?_, ?_⟩
  · have e := h2.1
    rw [h1.1] at e
    exact e
  · rcases h1.2 with e1 | ⟨e1, n, e1'⟩ <;> rcases h2.2 with e2 | ⟨e2, m, e2'⟩
    · exact .inl (e2.trans e1)
    · exact .inr ⟨e1 ▸ e2, m, e2'⟩
    · exact .inr ⟨e1, n, e2.trans e1'⟩
    · rw [e1'] at e2; exact absurd e2 (by simp)

theorem State.judge_onlyNotice (s : State) : s.lki.onlyNotice s.judge.lki := by
  rcases s.judge_cases with ⟨_, h⟩ | ⟨n, h⟩
  · rw [h]; exact Lki.onlyNotice_refl _
  · rw [h]; exact Lki.notice_onlyNotice _ _

theorem Lki.onlyNorth_refl (l : Lki) : l.onlyNorth l := ⟨rfl, fun _ => rfl⟩

theorem Lki.onlyNorth_trans {a b c : Lki} (h1 : a.onlyNorth b) (h2 : b.onlyNorth c) : a.onlyNorth c := by
  refine ⟨?_, fun h => ?_⟩
  · have e := h2.1
    rw [h1.1] at e
    exact e
  · have e := h1.2 h
    rw [h2.2 (e ▸ h), e]

theorem Lki.onlyNotice_north {a b : Lki} (h : a.onlyNotice b) : a.onlyNorth b := by
  refine ⟨?_, fun hs => ?_⟩
  · have e := h.1
    rw [e]
  · rcases h.2 with e | ⟨e, _⟩
    · exact e
    · rw [e] at hs; exact absurd hs (by simp)

/-- A NOTICE taken or placed does not touch the replies. -/
theorem Lki.onlyNotice_replyTrail {a b : Lki} (h : a.onlyNotice b) : b.replyTrail = a.replyTrail := by
  have hs : b.stream = a.stream := by rw [h.1]
  unfold Lki.replyTrail
  rcases h.2 with e | ⟨e, n, e'⟩
  · rw [e, hs]
  · rw [e, e', hs]

theorem Lki.onlyNotice_rx {a b : Lki} (h : a.onlyNotice b) : b.rx = a.rx := by rw [h.1]
theorem Lki.onlyNotice_linkErrors {a b : Lki} (h : a.onlyNotice b) : b.linkErrors = a.linkErrors := by rw [h.1]
theorem Lki.onlyNotice_regime {a b : Lki} (h : a.onlyNotice b) : b.regime = a.regime := by rw [h.1]
theorem Lki.onlyNotice_silenceTimeout {a b : Lki} (h : a.onlyNotice b) : b.silenceTimeout = a.silenceTimeout := by rw [h.1]
theorem Lki.onlyNotice_silenceTimer {a b : Lki} (h : a.onlyNotice b) : b.silenceTimer = a.silenceTimer := by rw [h.1]
theorem Lki.onlyNotice_stream {a b : Lki} (h : a.onlyNotice b) : b.stream = a.stream := by rw [h.1]
theorem Lki.onlyNotice_samples {a b : Lki} (h : a.onlyNotice b) : b.samples = a.samples := by rw [h.1]
theorem Lki.onlyNotice_ports {a b : Lki} (h : a.onlyNotice b) : b.ports = a.ports := by rw [h.1]

theorem Lki.onlyNorth_rx {a b : Lki} (h : a.onlyNorth b) : b.rx = a.rx := by rw [h.1]
theorem Lki.onlyNorth_linkErrors {a b : Lki} (h : a.onlyNorth b) : b.linkErrors = a.linkErrors := by rw [h.1]
theorem Lki.onlyNorth_regime {a b : Lki} (h : a.onlyNorth b) : b.regime = a.regime := by rw [h.1]
theorem Lki.onlyNorth_silenceTimeout {a b : Lki} (h : a.onlyNorth b) : b.silenceTimeout = a.silenceTimeout := by rw [h.1]
theorem Lki.onlyNorth_silenceTimer {a b : Lki} (h : a.onlyNorth b) : b.silenceTimer = a.silenceTimer := by rw [h.1]
theorem Lki.onlyNorth_samples {a b : Lki} (h : a.onlyNorth b) : b.samples = a.samples := by rw [h.1]
theorem Lki.onlyNorth_ports {a b : Lki} (h : a.onlyNorth b) : b.ports = a.ports := by rw [h.1]

@[simp] theorem State.judge_lki_rx (s : State) : s.judge.lki.rx = s.lki.rx := Lki.onlyNotice_rx s.judge_onlyNotice
@[simp] theorem State.judge_lki_linkErrors (s : State) : s.judge.lki.linkErrors = s.lki.linkErrors := Lki.onlyNotice_linkErrors s.judge_onlyNotice
@[simp] theorem State.judge_lki_regime (s : State) : s.judge.lki.regime = s.lki.regime := Lki.onlyNotice_regime s.judge_onlyNotice
@[simp] theorem State.judge_lki_silenceTimeout (s : State) : s.judge.lki.silenceTimeout = s.lki.silenceTimeout := Lki.onlyNotice_silenceTimeout s.judge_onlyNotice
@[simp] theorem State.judge_lki_silenceTimer (s : State) : s.judge.lki.silenceTimer = s.lki.silenceTimer := Lki.onlyNotice_silenceTimer s.judge_onlyNotice
@[simp] theorem State.judge_lki_stream (s : State) : s.judge.lki.stream = s.lki.stream := Lki.onlyNotice_stream s.judge_onlyNotice
@[simp] theorem State.judge_lki_samples (s : State) : s.judge.lki.samples = s.lki.samples := Lki.onlyNotice_samples s.judge_onlyNotice
@[simp] theorem State.judge_lki_ports (s : State) : s.judge.lki.ports = s.lki.ports := Lki.onlyNotice_ports s.judge_onlyNotice

/-- Judging does not touch the replies. -/
@[simp] theorem State.judge_replyTrail (s : State) : s.judge.lki.replyTrail = s.lki.replyTrail := by
  rcases s.judge_cases with ⟨_, h⟩ | ⟨n, h⟩
  · rw [h]
  · simp only [h, State.setLki_lki, Lki.transmit_replyTrail]; rfl

@[simp] theorem State.judge_globalEnable (s : State) : s.judge.ntu.globalEnable = s.ntu.globalEnable := by
  rcases s.judge_cases with ⟨_, h⟩ | ⟨_, h⟩ <;> simp [h]
@[simp] theorem State.judge_holdOff (s : State) : s.judge.ntu.holdOff = s.ntu.holdOff := by
  rcases s.judge_cases with ⟨_, h⟩ | ⟨_, h⟩ <;> simp [h]
@[simp] theorem State.judge_length (s : State) : s.judge.ntu.table.length = s.ntu.table.length := by
  rcases s.judge_cases with ⟨_, h⟩ | ⟨_, h⟩ <;> simp [h]

/-- An entry is eligible where it is latched, not notified, and may notify (R140). -/
theorem Ntu.eligible_iff (n : Ntu) (k : Nat) (e : EventEntry) :
    n.eligible k e = true ↔ e.latched = true ∧ e.notified = false ∧ n.mayNotify k e := by
  simp [Ntu.eligible, Ntu.softPasses, Ntu.mayNotify, and_assoc]

/-- With no eligible level there is no eligible entry. -/
theorem Ntu.eligible_of_levels (n : Ntu) (h : n.eligibleLevels = []) (k : Nat) (e : EventEntry) (he : n.table[k]? = some e) :
    n.eligible k e = false := by
  simp only [Ntu.eligibleLevels, List.map_eq_nil_iff, List.filter_eq_nil_iff] at h
  simpa using h (e, k) (List.mem_zipIdx_iff_getElem?.2 he)

/-- Judging marks every eligible entry notified and changes nothing else of the table (R140, R141). -/
theorem State.judge_entry (s : State) (k : Nat) :
    s.judge.ntu.table[k]? = (s.ntu.table[k]?).map fun e => { e with notified := e.notified || s.ntu.eligible k e } := by
  rcases s.judge_cases with ⟨h0, h⟩ | ⟨_, h⟩
  · rw [h]
    cases he : s.ntu.table[k]? with
    | none => rfl
    | some e => simp [s.ntu.eligible_of_levels h0 k e he]
  · simp [h, Ntu.markNotified_entry]

/-! ### Raising -/

/-- The codes that occur when pulses and conditions are raised together. -/
def State.raisedCodes (s : State) (pulses : List Event) (conds : List (Event × Bool)) : List Nat :=
  pulses.map Event.code ++ s.ntu.rising (conds.map fun (e, v) => (e.code, v))

/-- The event table as the events and the conditions leave it, before eligibility is judged. -/
def Ntu.raised (n : Ntu) (pulses : List Event) (conds : List (Event × Bool)) : Ntu :=
  (n.setLive (conds.map fun (e, v) => (e.code, v))).occur
    (pulses.map Event.code ++ n.rising (conds.map fun (e, v) => (e.code, v)))

/-- All that `raise` does: the table takes the events, and eligibility is judged if one occurred. -/
theorem State.raise_cases (s : State) (pulses : List Event) (conds : List (Event × Bool)) :
    (s.raisedCodes pulses conds = [] ∧ s.raise pulses conds = s.setNtu (s.ntu.raised pulses conds))
      ∨ (s.raisedCodes pulses conds ≠ [] ∧ s.raise pulses conds = (s.setNtu (s.ntu.raised pulses conds)).judge) := by
  unfold State.raise State.raisedCodes Ntu.raised
  by_cases h : (pulses.map Event.code ++ s.ntu.rising (conds.map fun (e, v) => (e.code, v))) = []
  · exact .inl ⟨h, by simp [h]⟩
  · refine .inr ⟨h, ?_⟩
    simp only [List.isEmpty_iff]
    rw [if_neg h]

@[simp] theorem State.raise_srt (s : State) (ps : List Event) (cs : List (Event × Bool)) : (s.raise ps cs).srt = s.srt := by
  rcases s.raise_cases ps cs with ⟨_, h⟩ | ⟨_, h⟩ <;> simp [h]
@[simp] theorem State.raise_rqh (s : State) (ps : List Event) (cs : List (Event × Bool)) : (s.raise ps cs).rqh = s.rqh := by
  rcases s.raise_cases ps cs with ⟨_, h⟩ | ⟨_, h⟩ <;> simp [h]
@[simp] theorem State.raise_ppc (s : State) (ps : List Event) (cs : List (Event × Bool)) : (s.raise ps cs).ppc = s.ppc := by
  rcases s.raise_cases ps cs with ⟨_, h⟩ | ⟨_, h⟩ <;> simp [h]
@[simp] theorem State.raise_lmc (s : State) (ps : List Event) (cs : List (Event × Bool)) : (s.raise ps cs).lmc = s.lmc := by
  rcases s.raise_cases ps cs with ⟨_, h⟩ | ⟨_, h⟩ <;> simp [h]
@[simp] theorem State.raise_mtm (s : State) (ps : List Event) (cs : List (Event × Bool)) : (s.raise ps cs).mtm = s.mtm := by
  rcases s.raise_cases ps cs with ⟨_, h⟩ | ⟨_, h⟩ <;> simp [h]
@[simp] theorem State.raise_pending (s : State) (ps : List Event) (cs : List (Event × Bool)) : (s.raise ps cs).pending = s.pending := by
  rcases s.raise_cases ps cs with ⟨_, h⟩ | ⟨_, h⟩ <;> simp [h]

theorem State.raise_onlyNotice (s : State) (ps : List Event) (cs : List (Event × Bool)) :
    s.lki.onlyNotice (s.raise ps cs).lki := by
  rcases s.raise_cases ps cs with ⟨_, h⟩ | ⟨_, h⟩
  · rw [h]; exact Lki.onlyNotice_refl _
  · rw [h]; exact State.judge_onlyNotice _

@[simp] theorem State.raise_lki_rx (s : State) (ps : List Event) (cs : List (Event × Bool)) :
    (s.raise ps cs).lki.rx = s.lki.rx := Lki.onlyNotice_rx (s.raise_onlyNotice ps cs)
@[simp] theorem State.raise_lki_linkErrors (s : State) (ps : List Event) (cs : List (Event × Bool)) :
    (s.raise ps cs).lki.linkErrors = s.lki.linkErrors := Lki.onlyNotice_linkErrors (s.raise_onlyNotice ps cs)
@[simp] theorem State.raise_lki_regime (s : State) (ps : List Event) (cs : List (Event × Bool)) :
    (s.raise ps cs).lki.regime = s.lki.regime := Lki.onlyNotice_regime (s.raise_onlyNotice ps cs)
@[simp] theorem State.raise_lki_silenceTimeout (s : State) (ps : List Event) (cs : List (Event × Bool)) :
    (s.raise ps cs).lki.silenceTimeout = s.lki.silenceTimeout := Lki.onlyNotice_silenceTimeout (s.raise_onlyNotice ps cs)
@[simp] theorem State.raise_lki_silenceTimer (s : State) (ps : List Event) (cs : List (Event × Bool)) :
    (s.raise ps cs).lki.silenceTimer = s.lki.silenceTimer := Lki.onlyNotice_silenceTimer (s.raise_onlyNotice ps cs)
@[simp] theorem State.raise_lki_stream (s : State) (ps : List Event) (cs : List (Event × Bool)) :
    (s.raise ps cs).lki.stream = s.lki.stream := Lki.onlyNotice_stream (s.raise_onlyNotice ps cs)
@[simp] theorem State.raise_lki_samples (s : State) (ps : List Event) (cs : List (Event × Bool)) :
    (s.raise ps cs).lki.samples = s.lki.samples := Lki.onlyNotice_samples (s.raise_onlyNotice ps cs)
@[simp] theorem State.raise_lki_ports (s : State) (ps : List Event) (cs : List (Event × Bool)) :
    (s.raise ps cs).lki.ports = s.lki.ports := Lki.onlyNotice_ports (s.raise_onlyNotice ps cs)

@[simp] theorem State.raise_replyTrail (s : State) (ps : List Event) (cs : List (Event × Bool)) :
    (s.raise ps cs).lki.replyTrail = s.lki.replyTrail := by
  rcases s.raise_cases ps cs with ⟨_, h⟩ | ⟨_, h⟩ <;> simp [h]
@[simp] theorem State.raise_globalEnable (s : State) (ps : List Event) (cs : List (Event × Bool)) :
    (s.raise ps cs).ntu.globalEnable = s.ntu.globalEnable := by
  rcases s.raise_cases ps cs with ⟨_, h⟩ | ⟨_, h⟩ <;> simp [h, Ntu.raised]
@[simp] theorem State.raise_holdOff (s : State) (ps : List Event) (cs : List (Event × Bool)) :
    (s.raise ps cs).ntu.holdOff = s.ntu.holdOff := by
  rcases s.raise_cases ps cs with ⟨_, h⟩ | ⟨_, h⟩ <;> simp [h, Ntu.raised]
@[simp] theorem State.raise_length (s : State) (ps : List Event) (cs : List (Event × Bool)) :
    (s.raise ps cs).ntu.table.length = s.ntu.table.length := by
  rcases s.raise_cases ps cs with ⟨_, h⟩ | ⟨_, h⟩ <;> simp [h, Ntu.raised]

/-- An entry as a raising leaves it before eligibility is judged: latched where its code occurred, live as delivered. -/
def State.raisedEntry (s : State) (ps : List Event) (cs : List (Event × Bool)) (k : Nat) (e : EventEntry) : EventEntry :=
  { e with latched := e.latched || decide (k ∈ s.raisedCodes ps cs)
           live := ((cs.map fun (c : Event × Bool) => (c.1.code, c.2)).lookup k).getD e.live }

section
variable (s : State) (ps : List Event) (cs : List (Event × Bool)) (k : Nat) (e : EventEntry)
@[simp] theorem State.raisedEntry_latched :
    (s.raisedEntry ps cs k e).latched = (e.latched || decide (k ∈ s.raisedCodes ps cs)) := rfl
@[simp] theorem State.raisedEntry_live :
    (s.raisedEntry ps cs k e).live = ((cs.map fun (c : Event × Bool) => (c.1.code, c.2)).lookup k).getD e.live := rfl
@[simp] theorem State.raisedEntry_notified : (s.raisedEntry ps cs k e).notified = e.notified := rfl
@[simp] theorem State.raisedEntry_enable : (s.raisedEntry ps cs k e).enable = e.enable := rfl
@[simp] theorem State.raisedEntry_level : (s.raisedEntry ps cs k e).level = e.level := rfl
end

theorem State.raised_entry (s : State) (ps : List Event) (cs : List (Event × Bool)) (k : Nat) :
    (s.ntu.raised ps cs).table[k]? = (s.ntu.table[k]?).map (s.raisedEntry ps cs k) := by
  unfold Ntu.raised State.raisedEntry State.raisedCodes
  rw [Ntu.occur_entry, Ntu.setLive_entry, Option.map_map]
  congr 1
  funext e
  simp only [Function.comp, List.contains_iff_mem]
  split <;> rename_i hk <;> simp [hk]

/-- Eligibility rests on the entry and on NTU's configuration alone (R140). -/
theorem Ntu.eligible_congr {n n' : Ntu} (h1 : n'.globalEnable = n.globalEnable) (h2 : n'.holdOff = n.holdOff) (k : Nat)
    (e : EventEntry) : n'.eligible k e = n.eligible k e := by simp [Ntu.eligible, Ntu.softPasses, h1, h2]

/-- An entry after a raising: as raised, and notified exactly where a code occurred and the entry is eligible with it (R138 to
R141). -/
theorem State.raise_entry (s : State) (ps : List Event) (cs : List (Event × Bool)) (k : Nat) :
    (s.raise ps cs).ntu.table[k]? = (s.ntu.table[k]?).map fun e =>
      { s.raisedEntry ps cs k e with
        notified := e.notified || (decide (s.raisedCodes ps cs ≠ []) && s.ntu.eligible k (s.raisedEntry ps cs k e)) } := by
  rcases s.raise_cases ps cs with ⟨h0, h⟩ | ⟨h0, h⟩
  · rw [h, State.setNtu_ntu, State.raised_entry]
    simp only [h0, ne_eq, not_true_eq_false, decide_false, Bool.false_and, Bool.or_false]
    rfl
  · rw [h, State.judge_entry, State.setNtu_ntu, State.raised_entry, Option.map_map]
    congr 1
    funext e
    simp only [Function.comp, h0, ne_eq, not_false_eq_true, decide_true, Bool.true_and]
    rw [Ntu.eligible_congr (n := s.ntu) rfl rfl]
    rfl

/-- After an occurrence, or where none was eligible before, no entry of the table is eligible: all were judged (R140). -/
theorem State.raise_judged (s : State) (ps : List Event) (cs : List (Event × Bool))
    (h : s.raisedCodes ps cs ≠ [] ∨ ∀ k e, s.ntu.table[k]? = some e → s.ntu.eligible k e = false) (k : Nat) (e : EventEntry)
    (he : (s.raise ps cs).ntu.table[k]? = some e) : (s.raise ps cs).ntu.eligible k e = false := by
  rw [Ntu.eligible_congr (n := s.ntu) (by simp) (by simp)]
  rw [State.raise_entry, Option.map_eq_some_iff] at he
  obtain ⟨d, hd, rfl⟩ := he
  by_cases h0 : s.raisedCodes ps cs = []
  · have := h.resolve_left (fun g => g h0) k d hd
    rw [Bool.eq_false_iff, ne_eq, Ntu.eligible_iff] at this ⊢
    simpa [Ntu.mayNotify, h0] using this
  · cases hel : s.ntu.eligible k (s.raisedEntry ps cs k d)
    · rw [Bool.eq_false_iff, ne_eq, Ntu.eligible_iff] at hel ⊢
      simpa [Ntu.mayNotify, h0] using hel
    · simp [h0, Ntu.eligible]

/-- A raised pulse is latched. -/
theorem State.raise_latches (s : State) (ps : List Event) (cs : List (Event × Bool)) (e : Event) (h : e ∈ ps)
    (hl : e.code < s.ntu.table.length) : (s.raise ps cs).ntu.isLatched e = true := by
  have hg := s.raise_entry ps cs e.code
  have : e.code ∈ s.raisedCodes ps cs := by
    simp only [State.raisedCodes, List.mem_append, List.mem_map]
    exact .inl ⟨e, h, rfl⟩
  rw [Ntu.isLatched, hg]
  simp [this, hl]

/-- What was latched stays latched. -/
theorem State.raise_keeps (s : State) (ps : List Event) (cs : List (Event × Bool)) (e : Event)
    (h : s.ntu.isLatched e = true) : (s.raise ps cs).ntu.isLatched e = true := by
  have hg := s.raise_entry ps cs e.code
  simp only [Ntu.isLatched, hg] at *
  cases hk : s.ntu.table[e.code]? <;> simp_all

/-- Only the raised codes and the delivered conditions change in the event table. -/
theorem State.raise_onlyEvents (s : State) (ps : List Event) (cs : List (Event × Bool)) :
    s.ntu.onlyEvents (ps ++ cs.map Prod.fst) (s.raise ps cs).ntu := by
  refine ⟨by simp, by simp, by simp, fun k => ?_, fun k hk => ?_, fun k e e' he he' => ?_⟩
  · have hg := s.raise_entry ps cs k
    rw [hg, Option.map_map]
    rfl
  · have hg := s.raise_entry ps cs k
    rw [hg, Option.map_map]
    have h1 : k ∉ s.raisedCodes ps cs := by
      intro h
      simp only [State.raisedCodes, List.mem_append, Ntu.rising, List.mem_map, List.mem_filter] at h
      apply hk
      rcases h with ⟨e, he, rfl⟩ | ⟨c, ⟨⟨d, hd, rfl⟩, _⟩, rfl⟩
      · exact List.mem_map.2 ⟨e, List.mem_append_left _ he, rfl⟩
      · exact List.mem_map.2 ⟨d.1, List.mem_append_right _ (List.mem_map.2 ⟨d, hd, rfl⟩), rfl⟩
    have h2 : (cs.map fun (c : Event × Bool) => (c.1.code, c.2)).lookup k = none := by
      rw [List.lookup_eq_none_iff]
      intro c hc
      simp only [List.mem_map] at hc
      obtain ⟨d, hd, rfl⟩ := hc
      simp only [bne_iff_ne, ne_eq]
      rintro rfl
      exact hk (List.mem_map.2 ⟨d.1, List.mem_append_right _ (List.mem_map.2 ⟨d, hd, rfl⟩), rfl⟩)
    congr 1
    funext e
    simp [h1, h2]
  · rw [State.raise_entry, he] at he'
    obtain rfl := Option.some.inj he'
    refine ⟨fun h => by simp [h], fun h => by simp [h], fun h => ?_⟩
    simp only [Bool.or_eq_true, Bool.and_eq_true, Ntu.eligible_iff] at h
    rcases h with h | ⟨_, hl, _, hm⟩
    · exact .inl h
    · exact .inr ⟨hl, by simpa [Ntu.mayNotify] using hm⟩

theorem Ntu.onlyEvents_refl (es : List Event) (n : Ntu) : n.onlyEvents es n := by
  refine ⟨rfl, rfl, rfl, fun _ => rfl, fun _ _ => rfl, fun k e e' he he' => ?_⟩
  obtain rfl := Option.some.inj (he.symm.trans he')
  exact ⟨id, id, .inl⟩

theorem Ntu.onlyEvents_mono {es fs : List Event} {n n' : Ntu} (h : n.onlyEvents es n') (hs : ∀ e ∈ es, e ∈ fs) :
    n.onlyEvents fs n' := by
  obtain ⟨h1, h2, h3, h4, h5, h6⟩ := h
  refine ⟨h1, h2, h3, h4, fun k hk => h5 k fun hm => hk ?_, h6⟩
  obtain ⟨e, he, rfl⟩ := List.mem_map.1 hm
  exact List.mem_map.2 ⟨e, hs e he, rfl⟩

/-- Whether an entry may notify rests on its enable and level and on NTU's configuration alone. -/
theorem Ntu.mayNotify_congr {n n' : Ntu} {k : Nat} {e e' : EventEntry} (h1 : n'.globalEnable = n.globalEnable)
    (h2 : n'.holdOff = n.holdOff) (h3 : (e'.enable, e'.level) = (e.enable, e.level)) : n'.mayNotify k e' ↔ n.mayNotify k e := by
  simp only [Prod.mk.injEq] at h3
  simp [Ntu.mayNotify, h1, h2, h3]

theorem Ntu.onlyEvents_trans {es : List Event} {a b c : Ntu} (h : a.onlyEvents es b) (h' : b.onlyEvents es c) :
    a.onlyEvents es c := by
  obtain ⟨h1, h2, h3, h4, h5, h6⟩ := h
  obtain ⟨g1, g2, g3, g4, g5, g6⟩ := h'
  refine ⟨g1.trans h1, g2.trans h2, g3.trans h3, fun k => (g4 k).trans (h4 k), fun k hk => (g5 k hk).trans (h5 k hk),
    fun k e e'' he he'' => ?_⟩
  have hk : k < b.table.length := g3 ▸ (List.getElem?_eq_some_iff.1 he'').1
  have he' := List.getElem?_eq_getElem hk
  obtain ⟨m1, m2, m3⟩ := h6 k e _ he he'
  obtain ⟨l1, l2, l3⟩ := g6 k _ e'' he' he''
  refine ⟨l1 ∘ m1, l2 ∘ m2, fun hn => ?_⟩
  rcases l3 hn with hb | hb
  · have hc := g4 k
    rw [he', he''] at hc
    exact (m3 hb).imp_right fun ⟨p, q⟩ => ⟨l1 p, (Ntu.mayNotify_congr g1 g2 (Option.some.inj hc)).2 q⟩
  · exact .inr hb

end Sys2Proof.Machine
end

