-- ==== Sys2Proof/Laws/Light.lean ====
section
/-! SUPPORT. What the events of LMC leave in each block. -/

namespace Sys2Proof.Machine

@[simp] theorem State.lmcEnd_srt (s : State) (m : Lmc) (ps : List Event) : (s.lmcEnd m ps).srt = s.srt := by
  simp [State.lmcEnd]
@[simp] theorem State.lmcEnd_rqh (s : State) (m : Lmc) (ps : List Event) : (s.lmcEnd m ps).rqh = s.rqh := by
  simp [State.lmcEnd]
@[simp] theorem State.lmcEnd_ppc (s : State) (m : Lmc) (ps : List Event) : (s.lmcEnd m ps).ppc = s.ppc := by
  simp [State.lmcEnd]
@[simp] theorem State.lmcEnd_mtm (s : State) (m : Lmc) (ps : List Event) : (s.lmcEnd m ps).mtm = s.mtm := by
  simp [State.lmcEnd]
@[simp] theorem State.lmcEnd_pending (s : State) (m : Lmc) (ps : List Event) : (s.lmcEnd m ps).pending = s.pending := by
  simp [State.lmcEnd]
@[simp] theorem State.lmcEnd_lmc (s : State) (m : Lmc) (ps : List Event) : (s.lmcEnd m ps).lmc = m := by
  simp [State.lmcEnd]
theorem State.lmcEnd_onlyNotice (s : State) (m : Lmc) (ps : List Event) : s.lki.onlyNotice (s.lmcEnd m ps).lki := by
  simpa [State.lmcEnd] using State.raise_onlyNotice (s.setLmc m) ps m.conditions
theorem State.lmcEnd_onlyEvents (s : State) (m : Lmc) (ps : List Event) :
    s.ntu.onlyEvents (ps ++ lightConditions) (s.lmcEnd m ps).ntu := by
  simpa [State.lmcEnd, Lmc.conditions, lightConditions] using State.raise_onlyEvents (s.setLmc m) ps m.conditions

@[simp] theorem State.lmcCut_srt (s : State) (m : Lmc) (c : Nat) : (s.lmcCut m c).srt = s.srt := by
  unfold State.lmcCut; split <;> simp
@[simp] theorem State.lmcCut_rqh (s : State) (m : Lmc) (c : Nat) : (s.lmcCut m c).rqh = s.rqh := by
  unfold State.lmcCut; split <;> simp
@[simp] theorem State.lmcCut_ppc (s : State) (m : Lmc) (c : Nat) : (s.lmcCut m c).ppc = s.ppc := by
  unfold State.lmcCut; split <;> simp
@[simp] theorem State.lmcCut_mtm (s : State) (m : Lmc) (c : Nat) : (s.lmcCut m c).mtm = s.mtm := by
  unfold State.lmcCut; split <;> simp
@[simp] theorem State.lmcCut_pending (s : State) (m : Lmc) (c : Nat) : (s.lmcCut m c).pending = s.pending := by
  unfold State.lmcCut; split <;> simp
/-- A cut leaves the output at the smaller of its value and the ceiling (R97, R98). -/
@[simp] theorem State.lmcCut_lmc (s : State) (m : Lmc) (c : Nat) : (s.lmcCut m c).lmc = { m with out := min m.out c } := by
  unfold State.lmcCut
  split
  · next h => simp [Nat.min_eq_right (Nat.le_of_lt h)]
  · next h => simp [Nat.min_eq_left (Nat.le_of_not_lt h)]
theorem State.lmcCut_onlyNotice (s : State) (m : Lmc) (c : Nat) : s.lki.onlyNotice (s.lmcCut m c).lki := by
  unfold State.lmcCut
  split
  · exact s.lmcEnd_onlyNotice _ _
  · exact s.lmcEnd_onlyNotice _ _
theorem State.lmcCut_onlyEvents (s : State) (m : Lmc) (c : Nat) :
    s.ntu.onlyEvents (.ceilingCut :: lightConditions) (s.lmcCut m c).ntu := by
  unfold State.lmcCut
  split
  · exact s.lmcEnd_onlyEvents _ _
  · exact Ntu.onlyEvents_mono (s.lmcEnd_onlyEvents _ _) (by simp +contextual)
theorem State.lmcEnd_keeps (s : State) (m : Lmc) (ps : List Event) (e : Event) (h : s.ntu.isLatched e = true) :
    (s.lmcEnd m ps).ntu.isLatched e = true := State.raise_keeps _ _ _ _ h
theorem State.lmcCut_keeps (s : State) (m : Lmc) (c : Nat) (e : Event) (h : s.ntu.isLatched e = true) :
    (s.lmcCut m c).ntu.isLatched e = true := by
  unfold State.lmcCut
  split
  · exact s.lmcEnd_keeps _ _ e h
  · exact s.lmcEnd_keeps _ _ e h
theorem State.deliverCeiling_keeps (s : State) (c : Nat) (e : Event) (h : s.ntu.isLatched e = true) :
    (s.deliverCeiling c).ntu.isLatched e = true := s.lmcCut_keeps _ _ e h
/-- A cut that lowers the output raises CEILING_CUT (R97). -/
theorem State.lmcCut_latches (s : State) (m : Lmc) (c : Nat) (h : c < m.out) (hl : s.ntu.table.length = 32) :
    (s.lmcCut m c).ntu.isLatched .ceilingCut = true := by
  unfold State.lmcCut State.lmcEnd
  rw [if_pos h]
  exact State.raise_latches _ _ _ _ (by simp) (by simp [hl, Event.code])

/-! ### The target -/

/-- A search or an evaluation changes only the latch and the two checks of the curve (R89, R90). -/
theorem Curve.fullSearch_only (c : Curve) (f : Nat) : (c.fullSearch f).1 = { c with
    latch := (c.fullSearch f).1.latch, validationPending := (c.fullSearch f).1.validationPending
    consistent := (c.fullSearch f).1.consistent } := by
  unfold Curve.fullSearch
  dsimp only
  repeat' split
  all_goals rfl
theorem Curve.evaluate_only (c : Curve) (f : Nat) : (c.evaluate f).1 = { c with
    latch := (c.evaluate f).1.latch, validationPending := (c.evaluate f).1.validationPending
    consistent := (c.evaluate f).1.consistent } := by
  unfold Curve.evaluate
  repeat' split
  · rfl
  · exact c.fullSearch_only f
  · exact c.fullSearch_only f

/-- All that forming T0 changes (R92). -/
theorem Lmc.formT0_only (m : Lmc) : m.formT0 = { m with
    t0 := m.formT0.t0
    curve := { m.curve with latch := m.formT0.curve.latch, validationPending := m.formT0.curve.validationPending
                            consistent := m.formT0.curve.consistent } } := by
  unfold Lmc.formT0
  split
  · rfl
  · rfl
  · split
    · rfl
    · next f _ =>
      have h := m.curve.evaluate_only f
      split
      · next c y hc => rw [hc] at h; dsimp only at h ⊢; rw [← h]
      · next c hc => rw [hc] at h; dsimp only at h ⊢; rw [← h]

/-- All that a recomputation changes (R96). -/
theorem Lmc.recompute_only (m : Lmc) : m.recompute = { m with
    t0 := m.recompute.t0, target := m.recompute.target
    curve := { m.curve with latch := m.recompute.curve.latch, validationPending := m.recompute.curve.validationPending
                            consistent := m.recompute.curve.consistent } } := by
  have h := m.formT0_only
  unfold Lmc.recompute
  dsimp only
  rw [h]

@[simp] theorem Lmc.recompute_front (m : Lmc) : m.recompute.front = m.front := by
  rw [m.recompute_only]
@[simp] theorem Lmc.recompute_top (m : Lmc) : m.recompute.top = m.top := by
  rw [m.recompute_only]
@[simp] theorem Lmc.recompute_set (m : Lmc) : m.recompute.set = m.set := by
  rw [m.recompute_only]
@[simp] theorem Lmc.recompute_e (m : Lmc) : m.recompute.e = m.e := by
  rw [m.recompute_only]
@[simp] theorem Lmc.recompute_lg (m : Lmc) : m.recompute.lg = m.lg := by
  rw [m.recompute_only]
@[simp] theorem Lmc.recompute_f (m : Lmc) : m.recompute.f = m.f := by
  rw [m.recompute_only]
@[simp] theorem Lmc.recompute_valid (m : Lmc) : m.recompute.valid = m.valid := by
  rw [m.recompute_only]
@[simp] theorem Lmc.recompute_freeze (m : Lmc) : m.recompute.freeze = m.freeze := by
  rw [m.recompute_only]
@[simp] theorem Lmc.recompute_mode (m : Lmc) : m.recompute.mode = m.mode := by
  rw [m.recompute_only]
@[simp] theorem Lmc.recompute_bias (m : Lmc) : m.recompute.bias = m.bias := by
  rw [m.recompute_only]
@[simp] theorem Lmc.recompute_forced (m : Lmc) : m.recompute.forced = m.forced := by
  rw [m.recompute_only]
@[simp] theorem Lmc.recompute_cPower (m : Lmc) : m.recompute.cPower = m.cPower := by
  rw [m.recompute_only]
@[simp] theorem Lmc.recompute_out (m : Lmc) : m.recompute.out = m.out := by
  rw [m.recompute_only]
@[simp] theorem Lmc.recompute_regime (m : Lmc) : m.recompute.regime = m.regime := by
  rw [m.recompute_only]
@[simp] theorem Lmc.recompute_stepTimer (m : Lmc) : m.recompute.stepTimer = m.stepTimer := by
  rw [m.recompute_only]

/-- T stands under C_power (R96). -/
theorem Lmc.recompute_target_le (m : Lmc) : m.recompute.target ≤ m.cPower := by
  have h2 : m.recompute.target = m.formT0.ceiled := rfl
  have h1 : m.formT0.cPower = m.cPower := by rw [m.formT0_only]
  rw [h2, Lmc.ceiled, h1]
  split <;> omega

/-- T stands under C_unatt in the UNATTENDED regime (R96). -/
theorem Lmc.recompute_target_unattended (m : Lmc) (hr : m.regime = .unattended) : m.recompute.target ≤ m.set.cUnatt := by
  have h2 : m.recompute.target = m.formT0.ceiled := rfl
  have h1 : m.formT0.regime = .unattended := by rw [m.formT0_only]; exact hr
  have h3 : m.formT0.set = m.set := by rw [m.formT0_only]
  rw [h2, Lmc.ceiled, if_pos h1, h3]
  omega

theorem Lmc.onlyTarget_refl (m : Lmc) : m.onlyTarget m := rfl

theorem Lmc.onlyTarget_trans {a b c : Lmc} (h1 : a.onlyTarget b) (h2 : b.onlyTarget c) : a.onlyTarget c := by
  unfold Lmc.onlyTarget at *
  rw [h2, h1]

/-- A recomputation changes only what forms the target. -/
theorem Lmc.recompute_onlyTarget (m : Lmc) : m.onlyTarget m.recompute := by
  unfold Lmc.onlyTarget
  rw [m.recompute_only]

/-! ### Deliveries to LMC -/

@[simp] theorem State.deliverCeiling_srt (s : State) (c : Nat) : (s.deliverCeiling c).srt = s.srt := by
  simp [State.deliverCeiling]
@[simp] theorem State.deliverCeiling_rqh (s : State) (c : Nat) : (s.deliverCeiling c).rqh = s.rqh := by
  simp [State.deliverCeiling]
@[simp] theorem State.deliverCeiling_ppc (s : State) (c : Nat) : (s.deliverCeiling c).ppc = s.ppc := by
  simp [State.deliverCeiling]
@[simp] theorem State.deliverCeiling_mtm (s : State) (c : Nat) : (s.deliverCeiling c).mtm = s.mtm := by
  simp [State.deliverCeiling]
@[simp] theorem State.deliverCeiling_pending (s : State) (c : Nat) : (s.deliverCeiling c).pending = s.pending := by
  simp [State.deliverCeiling]
/-- LMC after a delivery of C_power (R97). -/
theorem State.deliverCeiling_lmc (s : State) (c : Nat) :
    (s.deliverCeiling c).lmc
      = { { s.lmc with cPower := c }.recompute with out := min s.lmc.out c } := by
  simp [State.deliverCeiling]
@[simp] theorem State.deliverCeiling_cPower (s : State) (c : Nat) : (s.deliverCeiling c).lmc.cPower = c := by
  simp [State.deliverCeiling_lmc]
@[simp] theorem State.deliverCeiling_out (s : State) (c : Nat) : (s.deliverCeiling c).lmc.out = min s.lmc.out c := by
  simp [State.deliverCeiling_lmc]
theorem State.deliverCeiling_target_le (s : State) (c : Nat) : (s.deliverCeiling c).lmc.target ≤ c := by
  rw [State.deliverCeiling_lmc]
  exact Lmc.recompute_target_le { s.lmc with cPower := c }
theorem State.deliverCeiling_onlyTarget (s : State) (c : Nat) : s.lmc.onlyTarget (s.deliverCeiling c).lmc := by
  rw [State.deliverCeiling_lmc, Lmc.recompute_only { s.lmc with cPower := c }]
  rfl
theorem State.deliverCeiling_onlyNotice (s : State) (c : Nat) : s.lki.onlyNotice (s.deliverCeiling c).lki :=
  s.lmcCut_onlyNotice _ _
theorem State.deliverCeiling_onlyEvents (s : State) (c : Nat) :
    s.ntu.onlyEvents (.ceilingCut :: lightConditions) (s.deliverCeiling c).ntu := s.lmcCut_onlyEvents _ _

@[simp] theorem State.deliverRegime_srt (s : State) (r : Regime) : (s.deliverRegime r).srt = s.srt := by
  unfold State.deliverRegime; dsimp only; split <;> simp
@[simp] theorem State.deliverRegime_rqh (s : State) (r : Regime) : (s.deliverRegime r).rqh = s.rqh := by
  unfold State.deliverRegime; dsimp only; split <;> simp
@[simp] theorem State.deliverRegime_mtm (s : State) (r : Regime) : (s.deliverRegime r).mtm = s.mtm := by
  unfold State.deliverRegime; dsimp only; split <;> simp
@[simp] theorem State.deliverRegime_pending (s : State) (r : Regime) : (s.deliverRegime r).pending = s.pending := by
  unfold State.deliverRegime; dsimp only; split <;> simp
@[simp] theorem State.deliverRegime_ppc (s : State) (r : Regime) : (s.deliverRegime r).ppc = { s.ppc with regime := r } := by
  unfold State.deliverRegime; dsimp only; split <;> simp
theorem State.deliverRegime_onlyNotice (s : State) (r : Regime) : s.lki.onlyNotice (s.deliverRegime r).lki := by
  unfold State.deliverRegime
  dsimp only
  split
  · exact State.lmcCut_onlyNotice _ _ _
  · exact State.lmcEnd_onlyNotice _ _ _
theorem State.deliverRegime_onlyEvents (s : State) (r : Regime) :
    s.ntu.onlyEvents (.ceilingCut :: lightConditions) (s.deliverRegime r).ntu := by
  unfold State.deliverRegime
  dsimp only
  split
  · exact State.lmcCut_onlyEvents _ _ _
  · exact Ntu.onlyEvents_mono (State.lmcEnd_onlyEvents _ _ _) (by simp +contextual)
/-- LMC after a change of regime: the copy, a recomputed target, and a cut to C_unatt when the host has gone (R98). -/
theorem State.deliverRegime_lmc (s : State) (r : Regime) :
    (s.deliverRegime r).lmc = { { s.lmc with regime := r }.recompute with
      out := if r = .unattended then min s.lmc.out s.lmc.set.cUnatt else s.lmc.out } := by
  unfold State.deliverRegime
  dsimp only
  split
  · simp
  · rw [State.lmcEnd_lmc, Lmc.recompute_only { s.lmc with regime := r }]

@[simp] theorem State.freezeOn_lki (s : State) : (s.freezeOn).lki = s.lki := by
  rfl
@[simp] theorem State.freezeOn_srt (s : State) : (s.freezeOn).srt = s.srt := by
  rfl
@[simp] theorem State.freezeOn_rqh (s : State) : (s.freezeOn).rqh = s.rqh := by
  rfl
@[simp] theorem State.freezeOn_ppc (s : State) : (s.freezeOn).ppc = s.ppc := by
  rfl
@[simp] theorem State.freezeOn_mtm (s : State) : (s.freezeOn).mtm = s.mtm := by
  rfl
@[simp] theorem State.freezeOn_ntu (s : State) : (s.freezeOn).ntu = s.ntu := by
  rfl
@[simp] theorem State.freezeOn_pending (s : State) : (s.freezeOn).pending = s.pending := by
  rfl
@[simp] theorem State.freezeOn_lmc (s : State) : s.freezeOn.lmc = { s.lmc with freeze := true } := rfl
@[simp] theorem State.freezeOff_srt (s : State) : (s.freezeOff).srt = s.srt := by
  simp [State.freezeOff]
@[simp] theorem State.freezeOff_rqh (s : State) : (s.freezeOff).rqh = s.rqh := by
  simp [State.freezeOff]
@[simp] theorem State.freezeOff_ppc (s : State) : (s.freezeOff).ppc = s.ppc := by
  simp [State.freezeOff]
@[simp] theorem State.freezeOff_mtm (s : State) : (s.freezeOff).mtm = s.mtm := by
  simp [State.freezeOff]
@[simp] theorem State.freezeOff_pending (s : State) : (s.freezeOff).pending = s.pending := by
  simp [State.freezeOff]
@[simp] theorem State.freezeOff_lmc (s : State) : s.freezeOff.lmc = { s.lmc with freeze := false }.recompute := by
  simp [State.freezeOff]
theorem State.freezeOff_onlyNotice (s : State) : s.lki.onlyNotice s.freezeOff.lki := s.lmcEnd_onlyNotice _ _
theorem State.freezeOff_onlyEvents (s : State) : s.ntu.onlyEvents lightConditions s.freezeOff.ntu := s.lmcEnd_onlyEvents _ []
@[simp] theorem State.lightSample_srt (s : State) (r : LightRole) (b : List Byte) : (s.lightSample r b).srt = s.srt := by
  unfold State.lightSample; split <;> simp
@[simp] theorem State.lightSample_rqh (s : State) (r : LightRole) (b : List Byte) : (s.lightSample r b).rqh = s.rqh := by
  unfold State.lightSample; split <;> simp
@[simp] theorem State.lightSample_ppc (s : State) (r : LightRole) (b : List Byte) : (s.lightSample r b).ppc = s.ppc := by
  unfold State.lightSample; split <;> simp
@[simp] theorem State.lightSample_mtm (s : State) (r : LightRole) (b : List Byte) : (s.lightSample r b).mtm = s.mtm := by
  unfold State.lightSample; split <;> simp
@[simp] theorem State.lightSample_pending (s : State) (r : LightRole) (b : List Byte) : (s.lightSample r b).pending = s.pending := by
  unfold State.lightSample; split <;> simp
theorem State.lightSample_onlyNotice (s : State) (r : LightRole) (b : List Byte) : s.lki.onlyNotice (s.lightSample r b).lki := by
  unfold State.lightSample
  split
  · exact s.lmcEnd_onlyNotice _ _
  · exact s.lmcEnd_onlyNotice _ _
theorem State.lightSample_onlyEvents (s : State) (r : LightRole) (b : List Byte) :
    s.ntu.onlyEvents lightConditions (s.lightSample r b).ntu := by
  unfold State.lightSample
  split
  · exact s.lmcEnd_onlyEvents _ []
  · exact s.lmcEnd_onlyEvents _ []

end Sys2Proof.Machine
end

