-- ==== Sys2Proof/Laws/Power.lean ====
section
/-! SUPPORT. What the events of PPC leave in each block. -/

namespace Sys2Proof.Machine

@[simp] theorem State.ppcQuiet_srt (s : State) (p : Ppc) (ps : List Event) : (s.ppcQuiet p ps).srt = s.srt := by
  simp [State.ppcQuiet]
@[simp] theorem State.ppcQuiet_rqh (s : State) (p : Ppc) (ps : List Event) : (s.ppcQuiet p ps).rqh = s.rqh := by
  simp [State.ppcQuiet]
@[simp] theorem State.ppcQuiet_lmc (s : State) (p : Ppc) (ps : List Event) : (s.ppcQuiet p ps).lmc = s.lmc := by
  simp [State.ppcQuiet]
@[simp] theorem State.ppcQuiet_mtm (s : State) (p : Ppc) (ps : List Event) : (s.ppcQuiet p ps).mtm = s.mtm := by
  simp [State.ppcQuiet]
@[simp] theorem State.ppcQuiet_pending (s : State) (p : Ppc) (ps : List Event) : (s.ppcQuiet p ps).pending = s.pending := by
  simp [State.ppcQuiet]
@[simp] theorem State.ppcQuiet_ppc (s : State) (p : Ppc) (ps : List Event) : (s.ppcQuiet p ps).ppc = p := by
  simp [State.ppcQuiet]
/-- The event codes are 0 to 31 (Table 8-2). -/
theorem Event.code_lt (e : Event) : e.code < 32 := by
  cases e with
  | packSeated x | packReady x | packFault x | packLost x | packRemoved x | gaugeStale x => cases x <;> decide
  | lightLost x => cases x <;> decide
  | _ => decide
theorem State.ppcQuiet_onlyNotice (s : State) (p : Ppc) (ps : List Event) : s.lki.onlyNotice (s.ppcQuiet p ps).lki := by
  simpa [State.ppcQuiet] using State.raise_onlyNotice (s.setPpc p) ps p.conditions
theorem State.ppcQuiet_onlyEvents (s : State) (p : Ppc) (ps : List Event) :
    s.ntu.onlyEvents (ps ++ powerConditions) (s.ppcQuiet p ps).ntu := by
  simpa [State.ppcQuiet, Ppc.conditions, powerConditions] using State.raise_onlyEvents (s.setPpc p) ps p.conditions

/-- PPC after a settlement: the settled records, with the value delivered (R56, R62). -/
@[simp] theorem State.ppcSettle_ppc (s : State) (p : Ppc) (ps : List Event) :
    (s.ppcSettle p ps).ppc = { s.ppc.settle p s.lmc.out with
      budget := { (s.ppc.settle p s.lmc.out).budget with delivered := (s.ppc.settle p s.lmc.out).budget.cPower } } := by
  unfold State.ppcSettle
  dsimp only
  split
  · next h =>
    rw [State.ppcQuiet_ppc]
    generalize s.ppc.settle p s.lmc.out = q at h ⊢
    obtain ⟨_, _, _, _, _, _, ⟨_, _, _, _⟩, _, _, _, _, _, _⟩ := q
    simp_all
  · simp
/-- LMC after a settlement: a changed C_power is delivered (R62). -/
theorem State.ppcSettle_lmc (s : State) (p : Ppc) (ps : List Event) :
    (s.ppcSettle p ps).lmc =
      if (s.ppc.settle p s.lmc.out).budget.cPower = p.budget.delivered then s.lmc
      else { { s.lmc with cPower := (s.ppc.settle p s.lmc.out).budget.cPower }.recompute with
        out := min s.lmc.out (s.ppc.settle p s.lmc.out).budget.cPower } := by
  unfold State.ppcSettle
  dsimp only
  have h : (s.ppc.settle p s.lmc.out).budget.delivered = p.budget.delivered := rfl
  rw [h]
  split
  · simp
  · simp [State.deliverCeiling_lmc]
@[simp] theorem State.ppcSettle_srt (s : State) (p : Ppc) (ps : List Event) : (s.ppcSettle p ps).srt = s.srt := by
  unfold State.ppcSettle; dsimp only; split <;> simp
@[simp] theorem State.ppcSettle_rqh (s : State) (p : Ppc) (ps : List Event) : (s.ppcSettle p ps).rqh = s.rqh := by
  unfold State.ppcSettle; dsimp only; split <;> simp
@[simp] theorem State.ppcSettle_mtm (s : State) (p : Ppc) (ps : List Event) : (s.ppcSettle p ps).mtm = s.mtm := by
  unfold State.ppcSettle; dsimp only; split <;> simp
@[simp] theorem State.ppcSettle_pending (s : State) (p : Ppc) (ps : List Event) : (s.ppcSettle p ps).pending = s.pending := by
  unfold State.ppcSettle; dsimp only; split <;> simp
theorem State.ppcSettle_onlyNotice (s : State) (p : Ppc) (ps : List Event) : s.lki.onlyNotice (s.ppcSettle p ps).lki := by
  unfold State.ppcSettle
  dsimp only
  split
  · exact s.ppcQuiet_onlyNotice _ _
  · exact Lki.onlyNotice_trans (s.ppcQuiet_onlyNotice _ _) (State.deliverCeiling_onlyNotice _ _)
theorem State.ppcSettle_onlyTarget (s : State) (p : Ppc) (ps : List Event) : s.lmc.onlyTarget (s.ppcSettle p ps).lmc := by
  unfold State.ppcSettle
  dsimp only
  split
  · simpa using Lmc.onlyTarget_refl s.lmc
  · have h := State.deliverCeiling_onlyTarget
      (s.ppcQuiet { s.ppc.settle p s.lmc.out with budget := { (s.ppc.settle p s.lmc.out).budget with
        delivered := (s.ppc.settle p s.lmc.out).budget.cPower } } (ps ++
          if ((s.ppc.settle p s.lmc.out).bridge.exhausted && !p.bridge.exhausted) = true then [Event.bridgeExhausted] else []))
      (s.ppc.settle p s.lmc.out).budget.cPower
    simpa using h
theorem State.ppcSettle_onlyEvents (s : State) (p : Ppc) (ps : List Event) :
    s.ntu.onlyEvents (.bridgeExhausted :: .ceilingCut :: ps ++ powerConditions ++ lightConditions) (s.ppcSettle p ps).ntu := by
  unfold State.ppcSettle
  dsimp only
  split
  · refine Ntu.onlyEvents_mono (s.ppcQuiet_onlyEvents _ _) ?_
    intro e he
    simp only [List.mem_append, List.mem_cons] at *
    split at he <;> simp at he <;> tauto
  · refine Ntu.onlyEvents_trans (Ntu.onlyEvents_mono (s.ppcQuiet_onlyEvents _ _) ?_)
      (Ntu.onlyEvents_mono (State.deliverCeiling_onlyEvents _ _) ?_)
    · intro e he
      simp only [List.mem_append, List.mem_cons] at *
      split at he <;> simp at he <;> tauto
    · intro e he
      simp only [List.mem_append, List.mem_cons] at *
      tauto
/-- A pulse raised with a settlement is latched. -/
theorem State.ppcSettle_latches (s : State) (p : Ppc) (ps : List Event) (e : Event) (h : e ∈ ps)
    (hl : s.ntu.table.length = 32) : (s.ppcSettle p ps).ntu.isLatched e = true := by
  have hc := e.code_lt
  unfold State.ppcSettle
  dsimp only
  split
  · exact State.raise_latches _ _ _ _ (List.mem_append_left _ h) (by simpa [hl] using hc)
  · apply State.deliverCeiling_keeps
    exact State.raise_latches _ _ _ _ (List.mem_append_left _ h) (by simpa [hl] using hc)
theorem State.ppcQuiet_latches (s : State) (p : Ppc) (ps : List Event) (e : Event) (h : e ∈ ps)
    (hl : s.ntu.table.length = 32) : (s.ppcQuiet p ps).ntu.isLatched e = true := by
  have hc := e.code_lt
  exact State.raise_latches _ _ _ _ h (by simpa [hl] using hc)
theorem State.ppcEnd_latches (s : State) (p : Ppc) (ps : List Event) (e : Event) (h : e ∈ ps)
    (hl : s.ntu.table.length = 32) : (s.ppcEnd p ps).ntu.isLatched e = true := by
  unfold State.ppcEnd
  split
  · exact s.ppcQuiet_latches p ps e h hl
  · exact s.ppcSettle_latches p ps e h hl

@[simp] theorem State.ppcEnd_srt (s : State) (p : Ppc) (ps : List Event) : (s.ppcEnd p ps).srt = s.srt := by
  unfold State.ppcEnd; split <;> simp
@[simp] theorem State.ppcEnd_rqh (s : State) (p : Ppc) (ps : List Event) : (s.ppcEnd p ps).rqh = s.rqh := by
  unfold State.ppcEnd; split <;> simp
@[simp] theorem State.ppcEnd_mtm (s : State) (p : Ppc) (ps : List Event) : (s.ppcEnd p ps).mtm = s.mtm := by
  unfold State.ppcEnd; split <;> simp
@[simp] theorem State.ppcEnd_pending (s : State) (p : Ppc) (ps : List Event) : (s.ppcEnd p ps).pending = s.pending := by
  unfold State.ppcEnd; split <;> simp
theorem State.ppcEnd_onlyNotice (s : State) (p : Ppc) (ps : List Event) : s.lki.onlyNotice (s.ppcEnd p ps).lki := by
  unfold State.ppcEnd
  split
  · exact s.ppcQuiet_onlyNotice _ _
  · exact s.ppcSettle_onlyNotice _ _
theorem State.ppcEnd_onlyTarget (s : State) (p : Ppc) (ps : List Event) : s.lmc.onlyTarget (s.ppcEnd p ps).lmc := by
  unfold State.ppcEnd
  split
  · simpa using Lmc.onlyTarget_refl s.lmc
  · exact s.ppcSettle_onlyTarget _ _
theorem State.ppcEnd_onlyEvents (s : State) (p : Ppc) (ps : List Event) :
    s.ntu.onlyEvents (.bridgeExhausted :: .ceilingCut :: ps ++ powerConditions ++ lightConditions) (s.ppcEnd p ps).ntu := by
  unfold State.ppcEnd
  split
  · refine Ntu.onlyEvents_mono (s.ppcQuiet_onlyEvents _ _) ?_
    intro e he
    simp only [List.mem_append, List.mem_cons] at *
    tauto
  · exact s.ppcSettle_onlyEvents _ _

/-- What a settlement changes of PPC: the bridge record and the budget. -/
theorem Ppc.settle_only (before p : Ppc) (out : Nat) :
    before.settle p out = { p with bridge := (before.settle p out).bridge, budget := (before.settle p out).budget } := rfl
@[simp] theorem Ppc.settle_packA (b p : Ppc) (o : Nat) : (b.settle p o).packA = p.packA := rfl
@[simp] theorem State.ppcEnd_ppc_packA (s : State) (p : Ppc) (ps : List Event) : (s.ppcEnd p ps).ppc.packA = p.packA := by
  unfold State.ppcEnd; split <;> simp
@[simp] theorem Ppc.settle_packB (b p : Ppc) (o : Nat) : (b.settle p o).packB = p.packB := rfl
@[simp] theorem State.ppcEnd_ppc_packB (s : State) (p : Ppc) (ps : List Event) : (s.ppcEnd p ps).ppc.packB = p.packB := by
  unfold State.ppcEnd; split <;> simp
@[simp] theorem Ppc.settle_profile (b p : Ppc) (o : Nat) : (b.settle p o).profile = p.profile := rfl
@[simp] theorem State.ppcEnd_ppc_profile (s : State) (p : Ppc) (ps : List Event) : (s.ppcEnd p ps).ppc.profile = p.profile := by
  unfold State.ppcEnd; split <;> simp
@[simp] theorem Ppc.settle_bridgeSet (b p : Ppc) (o : Nat) : (b.settle p o).bridgeSet = p.bridgeSet := rfl
@[simp] theorem State.ppcEnd_ppc_bridgeSet (s : State) (p : Ppc) (ps : List Event) : (s.ppcEnd p ps).ppc.bridgeSet = p.bridgeSet := by
  unfold State.ppcEnd; split <;> simp
@[simp] theorem Ppc.settle_power (b p : Ppc) (o : Nat) : (b.settle p o).power = p.power := rfl
@[simp] theorem State.ppcEnd_ppc_power (s : State) (p : Ppc) (ps : List Event) : (s.ppcEnd p ps).ppc.power = p.power := by
  unfold State.ppcEnd; split <;> simp
@[simp] theorem Ppc.settle_dcinOk (b p : Ppc) (o : Nat) : (b.settle p o).dcinOk = p.dcinOk := rfl
@[simp] theorem State.ppcEnd_ppc_dcinOk (s : State) (p : Ppc) (ps : List Event) : (s.ppcEnd p ps).ppc.dcinOk = p.dcinOk := by
  unfold State.ppcEnd; split <;> simp
@[simp] theorem Ppc.settle_swDc (b p : Ppc) (o : Nat) : (b.settle p o).swDc = p.swDc := rfl
@[simp] theorem State.ppcEnd_ppc_swDc (s : State) (p : Ppc) (ps : List Event) : (s.ppcEnd p ps).ppc.swDc = p.swDc := by
  unfold State.ppcEnd; split <;> simp
@[simp] theorem Ppc.settle_brace (b p : Ppc) (o : Nat) : (b.settle p o).brace = p.brace := rfl
@[simp] theorem State.ppcEnd_ppc_brace (s : State) (p : Ppc) (ps : List Event) : (s.ppcEnd p ps).ppc.brace = p.brace := by
  unfold State.ppcEnd; split <;> simp
@[simp] theorem Ppc.settle_regime (b p : Ppc) (o : Nat) : (b.settle p o).regime = p.regime := rfl
@[simp] theorem State.ppcEnd_ppc_regime (s : State) (p : Ppc) (ps : List Event) : (s.ppcEnd p ps).ppc.regime = p.regime := by
  unfold State.ppcEnd; split <;> simp
@[simp] theorem Ppc.settle_settleTimer (b p : Ppc) (o : Nat) : (b.settle p o).settleTimer = p.settleTimer := rfl
@[simp] theorem State.ppcEnd_ppc_settleTimer (s : State) (p : Ppc) (ps : List Event) : (s.ppcEnd p ps).ppc.settleTimer = p.settleTimer := by
  unfold State.ppcEnd; split <;> simp
@[simp] theorem Ppc.settle_pBlMax (b p : Ppc) (o : Nat) : (b.settle p o).pBlMax = p.pBlMax := rfl
@[simp] theorem State.ppcEnd_ppc_pBlMax (s : State) (p : Ppc) (ps : List Event) : (s.ppcEnd p ps).ppc.pBlMax = p.pBlMax := by
  unfold State.ppcEnd; split <;> simp
@[simp] theorem State.ppcEnd_ppc_pack (s : State) (p : Ppc) (ps : List Event) (x : Slot) :
    (s.ppcEnd p ps).ppc.pack x = p.pack x := by
  cases x <;> simp [Ppc.pack]
@[simp] theorem Bridge.withWindow_fitted (b : Bridge) (ms : Nat) : (b.withWindow ms).fitted = b.fitted := by
  unfold Bridge.withWindow; split <;> rfl
@[simp] theorem Bridge.withWindow_last (b : Bridge) (ms : Nat) : (b.withWindow ms).last = b.last := by
  unfold Bridge.withWindow; split <;> rfl
@[simp] theorem Bridge.withWindow_low (b : Bridge) (ms : Nat) : (b.withWindow ms).low = b.low := by
  unfold Bridge.withWindow; split <;> rfl
@[simp] theorem Bridge.withWindow_switch (b : Bridge) (ms : Nat) : (b.withWindow ms).switch = b.switch := by
  unfold Bridge.withWindow; split <;> rfl
@[simp] theorem Bridge.withWindow_alone (b : Bridge) (ms : Nat) : (b.withWindow ms).alone = b.alone := by
  unfold Bridge.withWindow; split <;> rfl
/-- A settlement changes no switch. -/
@[simp] theorem Ppc.settle_switch (b p : Ppc) (o : Nat) : (b.settle p o).bridge.switch = p.bridge.switch := by
  cases h : b.windowStart p <;> simp [Ppc.settle, h, Ppc.settleBridge]
@[simp] theorem Ppc.settle_fitted (b p : Ppc) (o : Nat) : (b.settle p o).bridge.fitted = p.bridge.fitted := by
  cases h : b.windowStart p <;> simp [Ppc.settle, h, Ppc.settleBridge]
@[simp] theorem Ppc.settle_last (b p : Ppc) (o : Nat) : (b.settle p o).bridge.last = p.bridge.last := by
  cases h : b.windowStart p <;> simp [Ppc.settle, h, Ppc.settleBridge]
@[simp] theorem Ppc.settle_low (b p : Ppc) (o : Nat) : (b.settle p o).bridge.low = p.bridge.low := by
  cases h : b.windowStart p <;> simp [Ppc.settle, h, Ppc.settleBridge]
/-- The record of carrying alone follows the switches (R56). -/
@[simp] theorem Ppc.settle_alone (b p : Ppc) (o : Nat) : (b.settle p o).bridge.alone = p.carriesAlone := by
  cases h : b.windowStart p <;> simp [Ppc.settle, h, Ppc.settleBridge]
@[simp] theorem State.ppcEnd_ppc_switch (s : State) (p : Ppc) (ps : List Event) :
    (s.ppcEnd p ps).ppc.bridge.switch = p.bridge.switch := by
  unfold State.ppcEnd; split <;> simp
@[simp] theorem State.ppcEnd_ppc_fitted (s : State) (p : Ppc) (ps : List Event) :
    (s.ppcEnd p ps).ppc.bridge.fitted = p.bridge.fitted := by
  unfold State.ppcEnd; split <;> simp
/-- C_power is at most 4095 (R57). -/
theorem Ppc.settle_cPower_le (b p : Ppc) (o : Nat) : (b.settle p o).budget.cPower ≤ 4095 := by
  have h : p.backlightAllowance p.availablePower * 4095 / p.pBlMax ≤ 4095 := by
    apply Nat.div_le_of_le_mul
    have h2 : p.backlightAllowance p.availablePower ≤ p.pBlMax := Nat.min_le_right _ _
    exact Nat.mul_le_mul_right _ h2
  unfold Ppc.settle
  dsimp only
  repeat' split
  all_goals omega

/-! ### The taps and the deliveries to PPC -/

@[simp] theorem State.gaugeTap_srt (s : State) (x : Slot) (b : List Byte) : (s.gaugeTap x b).srt = s.srt := by
  unfold State.gaugeTap; dsimp only; split <;> simp
@[simp] theorem State.gaugeTap_rqh (s : State) (x : Slot) (b : List Byte) : (s.gaugeTap x b).rqh = s.rqh := by
  unfold State.gaugeTap; dsimp only; split <;> simp
@[simp] theorem State.gaugeTap_mtm (s : State) (x : Slot) (b : List Byte) : (s.gaugeTap x b).mtm = s.mtm := by
  unfold State.gaugeTap; dsimp only; split <;> simp
@[simp] theorem State.gaugeTap_pending (s : State) (x : Slot) (b : List Byte) : (s.gaugeTap x b).pending = s.pending := by
  unfold State.gaugeTap; dsimp only; split <;> simp
@[simp] theorem State.bridgeTap_srt (s : State) (b : List Byte) : (s.bridgeTap b).srt = s.srt := by
  unfold State.bridgeTap; dsimp only; repeat' split
  all_goals simp
@[simp] theorem State.bridgeTap_rqh (s : State) (b : List Byte) : (s.bridgeTap b).rqh = s.rqh := by
  unfold State.bridgeTap; dsimp only; repeat' split
  all_goals simp
@[simp] theorem State.bridgeTap_mtm (s : State) (b : List Byte) : (s.bridgeTap b).mtm = s.mtm := by
  unfold State.bridgeTap; dsimp only; repeat' split
  all_goals simp
@[simp] theorem State.bridgeTap_pending (s : State) (b : List Byte) : (s.bridgeTap b).pending = s.pending := by
  unfold State.bridgeTap; dsimp only; repeat' split
  all_goals simp
@[simp] theorem State.braceOn_srt (s : State) : (s.braceOn).srt = s.srt := by
  simp [State.braceOn]
@[simp] theorem State.braceOn_rqh (s : State) : (s.braceOn).rqh = s.rqh := by
  simp [State.braceOn]
@[simp] theorem State.braceOn_mtm (s : State) : (s.braceOn).mtm = s.mtm := by
  simp [State.braceOn]
@[simp] theorem State.braceOn_pending (s : State) : (s.braceOn).pending = s.pending := by
  simp [State.braceOn]
@[simp] theorem State.braceOff_srt (s : State) : (s.braceOff).srt = s.srt := by
  simp [State.braceOff]
@[simp] theorem State.braceOff_rqh (s : State) : (s.braceOff).rqh = s.rqh := by
  simp [State.braceOff]
@[simp] theorem State.braceOff_mtm (s : State) : (s.braceOff).mtm = s.mtm := by
  simp [State.braceOff]
@[simp] theorem State.braceOff_pending (s : State) : (s.braceOff).pending = s.pending := by
  simp [State.braceOff]
@[simp] theorem State.deliverPBlMax_srt (s : State) (v : Nat) : (s.deliverPBlMax v).srt = s.srt := by
  unfold State.deliverPBlMax; split <;> simp
@[simp] theorem State.deliverPBlMax_rqh (s : State) (v : Nat) : (s.deliverPBlMax v).rqh = s.rqh := by
  unfold State.deliverPBlMax; split <;> simp
@[simp] theorem State.deliverPBlMax_mtm (s : State) (v : Nat) : (s.deliverPBlMax v).mtm = s.mtm := by
  unfold State.deliverPBlMax; split <;> simp
@[simp] theorem State.deliverPBlMax_pending (s : State) (v : Nat) : (s.deliverPBlMax v).pending = s.pending := by
  unfold State.deliverPBlMax; split <;> simp
theorem State.gaugeTap_onlyNotice (s : State) (x : Slot) (b : List Byte) : s.lki.onlyNotice (s.gaugeTap x b).lki := by
  unfold State.gaugeTap
  dsimp only
  split
  · exact s.ppcSettle_onlyNotice _ _
  · exact s.ppcEnd_onlyNotice _ _
theorem State.gaugeTap_onlyTarget (s : State) (x : Slot) (b : List Byte) : s.lmc.onlyTarget (s.gaugeTap x b).lmc := by
  unfold State.gaugeTap
  dsimp only
  split
  · exact s.ppcSettle_onlyTarget _ _
  · exact s.ppcEnd_onlyTarget _ _
theorem State.bridgeTap_onlyNotice (s : State) (b : List Byte) : s.lki.onlyNotice (s.bridgeTap b).lki := by
  unfold State.bridgeTap
  dsimp only
  repeat' split
  · exact Lki.onlyNotice_refl _
  · exact s.ppcSettle_onlyNotice _ _
  · exact s.ppcQuiet_onlyNotice _ _
theorem State.bridgeTap_onlyTarget (s : State) (b : List Byte) : s.lmc.onlyTarget (s.bridgeTap b).lmc := by
  unfold State.bridgeTap
  dsimp only
  repeat' split
  · rfl
  · exact s.ppcSettle_onlyTarget _ _
  · simpa using Lmc.onlyTarget_refl s.lmc
theorem State.braceOn_onlyNotice (s : State) : s.lki.onlyNotice s.braceOn.lki := s.ppcEnd_onlyNotice _ _
theorem State.braceOff_onlyNotice (s : State) : s.lki.onlyNotice s.braceOff.lki := s.ppcEnd_onlyNotice _ _
theorem State.braceOn_onlyTarget (s : State) : s.lmc.onlyTarget s.braceOn.lmc := s.ppcEnd_onlyTarget _ _
theorem State.braceOff_onlyTarget (s : State) : s.lmc.onlyTarget s.braceOff.lmc := s.ppcEnd_onlyTarget _ _
theorem State.deliverPBlMax_onlyNotice (s : State) (v : Nat) : s.lki.onlyNotice (s.deliverPBlMax v).lki := by
  unfold State.deliverPBlMax
  split
  · exact Lki.onlyNotice_refl _
  · exact s.ppcSettle_onlyNotice _ _
theorem State.deliverPBlMax_onlyTarget (s : State) (v : Nat) : s.lmc.onlyTarget (s.deliverPBlMax v).lmc := by
  unfold State.deliverPBlMax
  split
  · rfl
  · exact s.ppcSettle_onlyTarget _ _

/-! ### Slots -/

@[simp] theorem Ppc.pack_setPack (p : Ppc) (x : Slot) (k : Pack) : (p.setPack x k).pack x = k := by cases x <;> rfl
@[simp] theorem Ppc.pack_setPack_other (p : Ppc) (x : Slot) (k : Pack) :
    (p.setPack x k).pack (otherSlot x) = p.pack (otherSlot x) := by cases x <;> rfl
theorem Ppc.pack_setPack_ne (p : Ppc) (x y : Slot) (k : Pack) (h : y ≠ x) : (p.setPack x k).pack y = p.pack y := by
  cases x <;> cases y <;> first | rfl | exact absurd rfl h
@[simp] theorem otherSlot_otherSlot (x : Slot) : otherSlot (otherSlot x) = x := by cases x <;> rfl
theorem otherSlot_ne (x : Slot) : otherSlot x ≠ x := by cases x <;> decide

end Sys2Proof.Machine
end

