-- ==== Sys2Proof/Laws/Motion.lean ====
section
/-! SUPPORT. What the events of MTM and the delivery of a phase leave in each block. -/

namespace Sys2Proof.Machine

@[simp] theorem State.overrideOn_lki (s : State) : (s.overrideOn).lki = s.lki := by
  unfold State.overrideOn; repeat' split
  all_goals rfl
@[simp] theorem State.overrideOn_rqh (s : State) : (s.overrideOn).rqh = s.rqh := by
  unfold State.overrideOn; repeat' split
  all_goals rfl
@[simp] theorem State.overrideOn_ppc (s : State) : (s.overrideOn).ppc = s.ppc := by
  unfold State.overrideOn; repeat' split
  all_goals rfl
@[simp] theorem State.overrideOn_lmc (s : State) : (s.overrideOn).lmc = s.lmc := by
  unfold State.overrideOn; repeat' split
  all_goals rfl
@[simp] theorem State.overrideOn_mtm (s : State) : (s.overrideOn).mtm = s.mtm := by
  unfold State.overrideOn; repeat' split
  all_goals rfl
@[simp] theorem State.overrideOn_ntu (s : State) : (s.overrideOn).ntu = s.ntu := by
  unfold State.overrideOn; repeat' split
  all_goals rfl
@[simp] theorem State.overrideOn_pending (s : State) : (s.overrideOn).pending = s.pending := by
  unfold State.overrideOn; repeat' split
  all_goals rfl
@[simp] theorem State.overrideOff_lki (s : State) : (s.overrideOff).lki = s.lki := by
  rfl
@[simp] theorem State.overrideOff_rqh (s : State) : (s.overrideOff).rqh = s.rqh := by
  rfl
@[simp] theorem State.overrideOff_ppc (s : State) : (s.overrideOff).ppc = s.ppc := by
  rfl
@[simp] theorem State.overrideOff_lmc (s : State) : (s.overrideOff).lmc = s.lmc := by
  rfl
@[simp] theorem State.overrideOff_mtm (s : State) : (s.overrideOff).mtm = s.mtm := by
  rfl
@[simp] theorem State.overrideOff_ntu (s : State) : (s.overrideOff).ntu = s.ntu := by
  rfl
@[simp] theorem State.overrideOff_pending (s : State) : (s.overrideOff).pending = s.pending := by
  rfl
@[simp] theorem State.overrideOn_table (s : State) : s.overrideOn.srt.table = s.srt.table := by
  unfold State.overrideOn; repeat' split
  all_goals rfl
/-- The override begins on the entry MTM names, if it is valid (R19). -/
theorem State.overrideOn_entry (s : State) : s.overrideOn.srt.overrideEntry = s.srt.overrideEntry
    ∨ ∃ i, s.mtm.accelIndex = some i ∧ (s.srt.table[i]?).any (·.valid) = true ∧ s.overrideOn.srt.overrideEntry = some i := by
  unfold State.overrideOn
  split
  · exact .inl rfl
  · next i h =>
    split
    · next hv => exact .inr ⟨i, h, hv, rfl⟩
    · exact .inl rfl
theorem State.overrideOn_srt (s : State) : s.overrideOn.srt = { s.srt with overrideEntry := s.overrideOn.srt.overrideEntry } := by
  unfold State.overrideOn; repeat' split
  all_goals rfl
@[simp] theorem State.overrideOff_srt (s : State) : s.overrideOff.srt = { s.srt with overrideEntry := none } := rfl

@[simp] theorem State.deliverPhase_mtm (s : State) (old new : Phase) : (s.deliverPhase old new).mtm = s.mtm := by
  unfold State.deliverPhase; dsimp only; repeat' split
  all_goals simp
@[simp] theorem State.deliverPhase_pending (s : State) (old new : Phase) : (s.deliverPhase old new).pending = s.pending := by
  unfold State.deliverPhase; dsimp only; repeat' split
  all_goals simp
/-- RQH's copy after a delivery (R110, R124). -/
theorem State.deliverPhase_rqh (s : State) (old new : Phase) (h : s.rqh.phaseCopy = old) :
    (s.deliverPhase old new).rqh = { s.rqh with phaseCopy := new } := by
  unfold State.deliverPhase
  dsimp only
  split
  · next he => rw [← he, ← h]
  · repeat' split
    all_goals simp
theorem State.deliverPhase_onlyNotice (s : State) (old new : Phase) : s.lki.onlyNotice (s.deliverPhase old new).lki := by
  unfold State.deliverPhase
  dsimp only
  split
  · exact Lki.onlyNotice_refl _
  · split
    · simpa using s.braceOn_onlyNotice
    · split
      · simpa using Lki.onlyNotice_trans s.braceOff_onlyNotice (State.freezeOff_onlyNotice _)
      · exact Lki.onlyNotice_refl _
/-- SRT after a delivery: only the override changes (R19, R20). -/
theorem State.deliverPhase_srt (s : State) (old new : Phase) : (s.deliverPhase old new).srt
    = { s.srt with overrideEntry := (s.deliverPhase old new).srt.overrideEntry } := by
  unfold State.deliverPhase
  dsimp only
  split
  · rfl
  · split
    · have h := State.overrideOn_srt s.braceOn.freezeOn
      simpa using h
    · split
      · simp
      · rfl
@[simp] theorem State.deliverPhase_table (s : State) (old new : Phase) : (s.deliverPhase old new).srt.table = s.srt.table := by
  rw [State.deliverPhase_srt]

@[simp] theorem State.mtmEnd_mtm (s : State) (r : Motion) : (s.mtmEnd r).mtm = r.mtm := by
  simp [State.mtmEnd]
@[simp] theorem State.mtmEnd_pending (s : State) (r : Motion) : (s.mtmEnd r).pending = s.pending := by
  simp [State.mtmEnd]
@[simp] theorem State.mtmEnd_table (s : State) (r : Motion) : (s.mtmEnd r).srt.table = s.srt.table := by
  simp [State.mtmEnd]
theorem State.mtmEnd_srt (s : State) (r : Motion) : (s.mtmEnd r).srt
    = { s.srt with overrideEntry := (s.mtmEnd r).srt.overrideEntry } := by
  unfold State.mtmEnd
  rw [State.deliverPhase_srt]
  simp
theorem State.mtmEnd_onlyNotice (s : State) (r : Motion) : s.lki.onlyNotice (s.mtmEnd r).lki := by
  unfold State.mtmEnd
  refine Lki.onlyNotice_trans ?_ (State.deliverPhase_onlyNotice _ _ _)
  simpa using State.raise_onlyNotice (s.setMtm r.mtm) r.pulses [(.motionBlind, !r.mtm.live)]
/-- RQH after an MTM event, where its copy was right (R110). -/
theorem State.mtmEnd_rqh (s : State) (r : Motion) (h : s.rqh.phaseCopy = s.mtm.phase) :
    (s.mtmEnd r).rqh = { s.rqh with phaseCopy := r.mtm.phase } := by
  unfold State.mtmEnd
  rw [State.deliverPhase_rqh _ _ _ (by simpa using h)]
  simp
/-- An MTM event that keeps the phase delivers nothing (R110). -/
theorem State.mtmEnd_same (s : State) (r : Motion) (h : r.mtm.phase = s.mtm.phase) :
    s.mtmEnd r = (s.setMtm r.mtm).raise r.pulses [(.motionBlind, !r.mtm.live)] := by
  simp [State.mtmEnd, State.deliverPhase, h]
@[simp] theorem State.accelTap_pending (s : State) (i : Nat) (b : List Byte) : (s.accelTap i b).pending = s.pending := by
  simp [State.accelTap]
@[simp] theorem State.accelTap_table (s : State) (i : Nat) (b : List Byte) : (s.accelTap i b).srt.table = s.srt.table := by
  simp [State.accelTap]
theorem State.accelTap_onlyNotice (s : State) (i : Nat) (b : List Byte) : s.lki.onlyNotice (s.accelTap i b).lki :=
  s.mtmEnd_onlyNotice _
@[simp] theorem State.reportDislodged_lki (s : State) (x : Slot) : (s.reportDislodged x).lki = s.lki := by
  rfl
@[simp] theorem State.reportDislodged_srt (s : State) (x : Slot) : (s.reportDislodged x).srt = s.srt := by
  rfl
@[simp] theorem State.reportDislodged_rqh (s : State) (x : Slot) : (s.reportDislodged x).rqh = s.rqh := by
  rfl
@[simp] theorem State.reportDislodged_ppc (s : State) (x : Slot) : (s.reportDislodged x).ppc = s.ppc := by
  rfl
@[simp] theorem State.reportDislodged_lmc (s : State) (x : Slot) : (s.reportDislodged x).lmc = s.lmc := by
  rfl
@[simp] theorem State.reportDislodged_ntu (s : State) (x : Slot) : (s.reportDislodged x).ntu = s.ntu := by
  rfl
@[simp] theorem State.reportDislodged_pending (s : State) (x : Slot) : (s.reportDislodged x).pending = s.pending := by
  rfl
@[simp] theorem State.reportDislodged_mtm (s : State) (x : Slot) : (s.reportDislodged x).mtm = s.mtm.onOpen fun r => r.dislodge x := rfl

/-! ### The ring -/

@[simp] theorem Mtm.onOpen_phase (m : Mtm) (g : DropRecord → DropRecord) : (m.onOpen g).phase = m.phase := rfl
@[simp] theorem Mtm.onOpen_length (m : Mtm) (g : DropRecord → DropRecord) : (m.onOpen g).ring.length = m.ring.length := by
  simp [Mtm.onOpen]
/-- A record of the ring after a change of the OPEN record. -/
theorem Mtm.onOpen_record (m : Mtm) (g : DropRecord → DropRecord) (i : Nat) :
    (m.onOpen g).ring[i]? = (m.ring[i]?).map fun r => if r.isOpen then g r else r := by
  simp [Mtm.onOpen]
theorem makeRoom_length_lt (ring : List DropRecord) (h : ring.length ≤ 8) : (makeRoom ring).length < 8 := by
  unfold makeRoom Config.dropRecords
  split
  · assumption
  · simp only [List.length_drop]; omega
theorem pushHistory_length (h : List Nat) (m : Nat) (hl : h.length ≤ 8) : (pushHistory h m).length ≤ 8 := by
  unfold pushHistory Config.historyPlaces
  split <;> simp <;> omega

end Sys2Proof.Machine
end

