-- ==== Sys2Proof/Laws/Routing.lean ====
section
/-! SUPPORT. What the routing of a sample leaves in each block. -/

namespace Sys2Proof.Machine

@[simp] theorem State.editEntry_lki (s : State) (i : Nat) (g : RouteEntry → RouteEntry) : (s.editEntry i g).lki = s.lki := by
  rfl
@[simp] theorem State.editEntry_rqh (s : State) (i : Nat) (g : RouteEntry → RouteEntry) : (s.editEntry i g).rqh = s.rqh := by
  rfl
@[simp] theorem State.editEntry_ppc (s : State) (i : Nat) (g : RouteEntry → RouteEntry) : (s.editEntry i g).ppc = s.ppc := by
  rfl
@[simp] theorem State.editEntry_lmc (s : State) (i : Nat) (g : RouteEntry → RouteEntry) : (s.editEntry i g).lmc = s.lmc := by
  rfl
@[simp] theorem State.editEntry_mtm (s : State) (i : Nat) (g : RouteEntry → RouteEntry) : (s.editEntry i g).mtm = s.mtm := by
  rfl
@[simp] theorem State.editEntry_ntu (s : State) (i : Nat) (g : RouteEntry → RouteEntry) : (s.editEntry i g).ntu = s.ntu := by
  rfl
@[simp] theorem State.editEntry_pending (s : State) (i : Nat) (g : RouteEntry → RouteEntry) : (s.editEntry i g).pending = s.pending := by
  rfl
@[simp] theorem State.editEntry_table (s : State) (i : Nat) (g : RouteEntry → RouteEntry) :
    (s.editEntry i g).srt.table = s.srt.table.modify i g := rfl
@[simp] theorem State.editEntry_overrideEntry (s : State) (i : Nat) (g : RouteEntry → RouteEntry) :
    (s.editEntry i g).srt.overrideEntry = s.srt.overrideEntry := rfl
@[simp] theorem State.editEntry_unmatched (s : State) (i : Nat) (g : RouteEntry → RouteEntry) :
    (s.editEntry i g).srt.unmatched = s.srt.unmatched := rfl
@[simp] theorem State.editEntry_defaultRoute (s : State) (i : Nat) (g : RouteEntry → RouteEntry) :
    (s.editEntry i g).srt.defaultRoute = s.srt.defaultRoute := rfl
@[simp] theorem State.editEntry_holding (s : State) (i : Nat) (g : RouteEntry → RouteEntry) :
    (s.editEntry i g).srt.holding = s.srt.holding := rfl

@[simp] theorem State.placeSample_srt (s : State) (x : Sample) : (s.placeSample x).srt = s.srt := by
  simp [State.placeSample]
@[simp] theorem State.placeSample_ppc (s : State) (x : Sample) : (s.placeSample x).ppc = s.ppc := by
  simp [State.placeSample]
@[simp] theorem State.placeSample_lmc (s : State) (x : Sample) : (s.placeSample x).lmc = s.lmc := by
  simp [State.placeSample]
@[simp] theorem State.placeSample_mtm (s : State) (x : Sample) : (s.placeSample x).mtm = s.mtm := by
  simp [State.placeSample]
@[simp] theorem State.placeSample_ntu (s : State) (x : Sample) : (s.placeSample x).ntu = s.ntu := by
  simp [State.placeSample]
@[simp] theorem State.placeSample_pending (s : State) (x : Sample) : (s.placeSample x).pending = s.pending := by
  simp [State.placeSample]
@[simp] theorem State.placeSample_lki (s : State) (x : Sample) :
    (s.placeSample x).lki = { s.lki with samples := s.lki.samples ++ [x] }.transmit := by
  simp [State.placeSample]
@[simp] theorem State.placeSample_waiting (s : State) (x : Sample) : (s.placeSample x).rqh.waiting = s.rqh.waiting := by
  simp [State.placeSample]
@[simp] theorem State.placeSample_phaseCopy (s : State) (x : Sample) :
    (s.placeSample x).rqh.phaseCopy = s.rqh.phaseCopy := by
  simp [State.placeSample]
@[simp] theorem State.offer_ppc (s : State) (i : Nat) (x : Sample) : (s.offer i x).ppc = s.ppc := by
  unfold State.offer; split <;> simp
@[simp] theorem State.offer_lmc (s : State) (i : Nat) (x : Sample) : (s.offer i x).lmc = s.lmc := by
  unfold State.offer; split <;> simp
@[simp] theorem State.offer_mtm (s : State) (i : Nat) (x : Sample) : (s.offer i x).mtm = s.mtm := by
  unfold State.offer; split <;> simp
@[simp] theorem State.offer_pending (s : State) (i : Nat) (x : Sample) : (s.offer i x).pending = s.pending := by
  unfold State.offer; split <;> simp
/-- The counters after an offer (R3). -/
theorem State.offer_srt (s : State) (i : Nat) (x : Sample) : (s.offer i x).srt = { s.srt with table := s.srt.table.modify i fun e =>
    if s.lki.sampleRoom then { e with passed := satInc e.passed } else { e with withheld := satInc e.withheld } } := by
  unfold State.offer
  split
  · simp [State.editEntry]
  · simp [State.editEntry]
@[simp] theorem State.offer_phaseCopy (s : State) (i : Nat) (x : Sample) : (s.offer i x).rqh.phaseCopy = s.rqh.phaseCopy := by
  unfold State.offer; split <;> simp
@[simp] theorem State.offer_waiting (s : State) (i : Nat) (x : Sample) : (s.offer i x).rqh.waiting = s.rqh.waiting := by
  unfold State.offer; split <;> simp
@[simp] theorem State.withhold_lki (s : State) (i : Nat) : (s.withhold i).lki = s.lki := by
  rfl
@[simp] theorem State.withhold_rqh (s : State) (i : Nat) : (s.withhold i).rqh = s.rqh := by
  rfl
@[simp] theorem State.withhold_ppc (s : State) (i : Nat) : (s.withhold i).ppc = s.ppc := by
  rfl
@[simp] theorem State.withhold_lmc (s : State) (i : Nat) : (s.withhold i).lmc = s.lmc := by
  rfl
@[simp] theorem State.withhold_mtm (s : State) (i : Nat) : (s.withhold i).mtm = s.mtm := by
  rfl
@[simp] theorem State.withhold_ntu (s : State) (i : Nat) : (s.withhold i).ntu = s.ntu := by
  rfl
@[simp] theorem State.withhold_pending (s : State) (i : Nat) : (s.withhold i).pending = s.pending := by
  rfl
@[simp] theorem State.northbound_ppc (s : State) (i : Nat) (e : RouteEntry) (x : Sample) : (s.northbound i e x).ppc = s.ppc := by
  unfold State.northbound; repeat' split
  all_goals simp
@[simp] theorem State.northbound_lmc (s : State) (i : Nat) (e : RouteEntry) (x : Sample) : (s.northbound i e x).lmc = s.lmc := by
  unfold State.northbound; repeat' split
  all_goals simp
@[simp] theorem State.northbound_mtm (s : State) (i : Nat) (e : RouteEntry) (x : Sample) : (s.northbound i e x).mtm = s.mtm := by
  unfold State.northbound; repeat' split
  all_goals simp
@[simp] theorem State.northbound_pending (s : State) (i : Nat) (e : RouteEntry) (x : Sample) : (s.northbound i e x).pending = s.pending := by
  unfold State.northbound; repeat' split
  all_goals simp
@[simp] theorem State.northbound_waiting (s : State) (i : Nat) (e : RouteEntry) (x : Sample) :
    (s.northbound i e x).rqh.waiting = s.rqh.waiting := by
  unfold State.northbound; repeat' split
  all_goals simp
@[simp] theorem State.northbound_phaseCopy (s : State) (i : Nat) (e : RouteEntry) (x : Sample) :
    (s.northbound i e x).rqh.phaseCopy = s.rqh.phaseCopy := by
  unfold State.northbound; repeat' split
  all_goals simp
@[simp] theorem State.tapDeliver_pending (s : State) (r : TapRole) (i : Nat) (x : Sample) : (s.tapDeliver r i x).pending = s.pending := by
  unfold State.tapDeliver; repeat' split
  all_goals simp
@[simp] theorem State.tapDeliver_table (s : State) (r : TapRole) (i : Nat) (x : Sample) :
    (s.tapDeliver r i x).srt.table = s.srt.table := by
  unfold State.tapDeliver; repeat' split
  all_goals simp
/-- An engine changes nothing of SRT but the override (R6, R19, R20). -/
theorem State.tapDeliver_srt (s : State) (r : TapRole) (i : Nat) (x : Sample) : (s.tapDeliver r i x).srt
    = { s.srt with overrideEntry := (s.tapDeliver r i x).srt.overrideEntry } := by
  unfold State.tapDeliver
  split
  · rfl
  · split
    · simp
    · split <;> first | (simp; done) | exact s.mtmEnd_srt _
theorem State.tapDeliver_onlyNotice (s : State) (r : TapRole) (i : Nat) (x : Sample) :
    s.lki.onlyNotice (s.tapDeliver r i x).lki := by
  unfold State.tapDeliver
  split
  · exact Lki.onlyNotice_refl _
  · split
    · exact s.raise_onlyNotice _ _
    · split
      · exact Lki.onlyNotice_refl _
      · exact s.accelTap_onlyNotice _ _
      · exact s.lightSample_onlyNotice _ _
      · exact s.lightSample_onlyNotice _ _
      · exact s.gaugeTap_onlyNotice _ _
      · exact s.gaugeTap_onlyNotice _ _
      · exact s.bridgeTap_onlyNotice _
@[simp] theorem State.unmatchedSample_ppc (s : State) (x : Sample) : (s.unmatchedSample x).ppc = s.ppc := by
  unfold State.unmatchedSample; dsimp only; repeat' split
  all_goals simp
@[simp] theorem State.unmatchedSample_lmc (s : State) (x : Sample) : (s.unmatchedSample x).lmc = s.lmc := by
  unfold State.unmatchedSample; dsimp only; repeat' split
  all_goals simp
@[simp] theorem State.unmatchedSample_mtm (s : State) (x : Sample) : (s.unmatchedSample x).mtm = s.mtm := by
  unfold State.unmatchedSample; dsimp only; repeat' split
  all_goals simp
@[simp] theorem State.unmatchedSample_pending (s : State) (x : Sample) : (s.unmatchedSample x).pending = s.pending := by
  unfold State.unmatchedSample; dsimp only; repeat' split
  all_goals simp
@[simp] theorem State.unmatchedSample_waiting (s : State) (x : Sample) :
    (s.unmatchedSample x).rqh.waiting = s.rqh.waiting := by
  unfold State.unmatchedSample; dsimp only; repeat' split
  all_goals simp
@[simp] theorem State.unmatchedSample_phaseCopy (s : State) (x : Sample) :
    (s.unmatchedSample x).rqh.phaseCopy = s.rqh.phaseCopy := by
  unfold State.unmatchedSample; dsimp only; repeat' split
  all_goals simp
/-- SRT after an unmatched sample (R7). -/
theorem State.unmatchedSample_srt (s : State) (x : Sample) : (s.unmatchedSample x).srt = { s.srt with
    unmatched := if s.srt.defaultRoute && s.lki.sampleRoom then s.srt.unmatched else satInc s.srt.unmatched } := by
  unfold State.unmatchedSample
  dsimp only
  generalize hd : s.srt.defaultRoute = d
  cases d <;> by_cases h2 : s.lki.sampleRoom = true <;> simp [h2]
  exact hd ▸ rfl
@[simp] theorem State.routeSample_pending (s : State) (x : Sample) : (s.routeSample x).pending = s.pending := by
  unfold State.routeSample; repeat' split
  all_goals simp
/-- A matched sample: the northbound path through the entry, then its tap (R2, R6). -/
theorem State.routeSample_matched (s : State) (x : Sample) (i : Nat) (e : RouteEntry)
    (h : matchIndex s.srt.table x.source = some i) (he : s.srt.table[i]? = some e) :
    s.routeSample x = (s.northbound i e x).tapDeliver e.tap i x := by
  simp [State.routeSample, h, he]
theorem State.routeSample_unmatched (s : State) (x : Sample) (h : matchIndex s.srt.table x.source = none) :
    s.routeSample x = s.unmatchedSample x := by
  simp [State.routeSample, h]

/-! ### The events of the link -/

@[simp] theorem State.linkError_srt (s : State) : (s.linkError).srt = s.srt := by
  simp [State.linkError]
@[simp] theorem State.linkError_rqh (s : State) : (s.linkError).rqh = s.rqh := by
  simp [State.linkError]
@[simp] theorem State.linkError_ppc (s : State) : (s.linkError).ppc = s.ppc := by
  simp [State.linkError]
@[simp] theorem State.linkError_lmc (s : State) : (s.linkError).lmc = s.lmc := by
  simp [State.linkError]
@[simp] theorem State.linkError_mtm (s : State) : (s.linkError).mtm = s.mtm := by
  simp [State.linkError]
@[simp] theorem State.linkError_pending (s : State) : (s.linkError).pending = s.pending := by
  simp [State.linkError]
@[simp] theorem State.linkError_linkErrors (s : State) : s.linkError.lki.linkErrors = satInc s.lki.linkErrors := by
  simp [State.linkError]
theorem State.linkError_latches (s : State) (hl : s.ntu.table.length = 32) : s.linkError.ntu.isLatched .linkError = true :=
  State.raise_latches _ _ _ _ (by simp) (by simp [hl, Event.code])
@[simp] theorem State.admitRequest_srt (s : State) (r : Request) : (s.admitRequest r).srt = s.srt := by
  unfold State.admitRequest; repeat' split
  all_goals simp
@[simp] theorem State.admitRequest_ppc (s : State) (r : Request) : (s.admitRequest r).ppc = s.ppc := by
  unfold State.admitRequest; repeat' split
  all_goals simp
@[simp] theorem State.admitRequest_lmc (s : State) (r : Request) : (s.admitRequest r).lmc = s.lmc := by
  unfold State.admitRequest; repeat' split
  all_goals simp
@[simp] theorem State.admitRequest_mtm (s : State) (r : Request) : (s.admitRequest r).mtm = s.mtm := by
  unfold State.admitRequest; repeat' split
  all_goals simp
@[simp] theorem State.admitRequest_pending (s : State) (r : Request) : (s.admitRequest r).pending = s.pending := by
  unfold State.admitRequest; repeat' split
  all_goals simp
/-- The requests after an admission: the new one stands last unless the queue is full (R150). -/
theorem State.admitRequest_waiting (s : State) (r : Request) : (s.admitRequest r).rqh.waiting
    = if s.rqh.queue.length < Config.requestPlaces then s.rqh.waiting ++ [r] else s.rqh.waiting := by
  unfold State.admitRequest
  split
  · rw [State.pump_waiting]; simp [Rqh.waiting]
  · split
    · rw [State.pump_waiting]; rfl
    · simp
@[simp] theorem State.attend_srt (s : State) : (s.attend).srt = s.srt := by
  unfold State.attend; split <;> simp
@[simp] theorem State.attend_rqh (s : State) : (s.attend).rqh = s.rqh := by
  unfold State.attend; split <;> simp
@[simp] theorem State.attend_mtm (s : State) : (s.attend).mtm = s.mtm := by
  unfold State.attend; split <;> simp
@[simp] theorem State.attend_pending (s : State) : (s.attend).pending = s.pending := by
  unfold State.attend; split <;> simp
/-- LKI after the restart of the silence timer (R165). -/
theorem Lki.restartSilence_eq (l : Lki) : l.restartSilence = { l with silenceTimer :=
    (if l.silenceTimeout = 0 then l.silenceTimer else some (l.silenceTimeout * 100)) } := by
  unfold Lki.restartSilence
  split <;> rfl
/-- The return to ATTENDED touches LKI's regime and notice only (R165). -/
theorem State.attend_lki (s : State) : ({ s.lki with regime := .attended }).onlyNotice s.attend.lki := by
  unfold State.attend
  split
  · exact State.deliverRegime_onlyNotice (s.setLki { s.lki with regime := .attended }) .attended
  · next h =>
    have hr : s.lki.regime = .attended := by cases hh : s.lki.regime <;> simp_all
    rw [← hr]
    exact Lki.onlyNotice_refl _
theorem State.attend_replyTrail (s : State) : s.attend.lki.replyTrail = s.lki.replyTrail := by
  rw [Lki.onlyNotice_replyTrail s.attend_lki]
  rfl
theorem State.attend_attended (s : State) (h : s.lki.regime = .attended) : s.attend = s := by
  simp [State.attend, h]
theorem State.attend_ppc (s : State) (h : s.lki.regime = .unattended) : s.attend.ppc = { s.ppc with regime := .attended } := by
  simp [State.attend, h]
theorem State.attend_lmc (s : State) (h : s.lki.regime = .unattended) :
    s.attend.lmc = { s.lmc with regime := .attended }.recompute := by
  simp [State.attend, h, State.deliverRegime]
/-- LKI after an admission (R150). -/
theorem State.admitRequest_lki (s : State) (r : Request) : (s.admitRequest r).lki =
    if s.rqh.queue.length < Config.requestPlaces then s.lki.transmit
    else if s.lki.busyCount < Config.busyPlaces then (s.lki.place (.busy r.tag)).transmit else s.linkError.lki := by
  unfold State.admitRequest
  repeat' split
  all_goals simp
@[simp] theorem State.admitRequest_phaseCopy (s : State) (r : Request) : (s.admitRequest r).rqh.phaseCopy = s.rqh.phaseCopy := by
  unfold State.admitRequest
  repeat' split
  all_goals simp
@[simp] theorem State.validRequest_srt (s : State) (r : Request) : (s.validRequest r).srt = s.srt := by
  simp [State.validRequest]
@[simp] theorem State.validRequest_mtm (s : State) (r : Request) : (s.validRequest r).mtm = s.mtm := by
  simp [State.validRequest]
@[simp] theorem State.validRequest_pending (s : State) (r : Request) : (s.validRequest r).pending = s.pending := by
  simp [State.validRequest]
@[simp] theorem State.receiveUplink_srt (s : State) (f : WireFrame) : (s.receiveUplink f).srt = s.srt := by
  unfold State.receiveUplink; dsimp only; split <;> simp
@[simp] theorem State.receiveUplink_mtm (s : State) (f : WireFrame) : (s.receiveUplink f).mtm = s.mtm := by
  unfold State.receiveUplink; dsimp only; split <;> simp
@[simp] theorem State.receiveUplink_pending (s : State) (f : WireFrame) : (s.receiveUplink f).pending = s.pending := by
  unfold State.receiveUplink; dsimp only; split <;> simp
@[simp] theorem State.editPort_srt (s : State) (p : PortId) (g : FieldPort → FieldPort) : (s.editPort p g).srt = s.srt := by
  rfl
@[simp] theorem State.editPort_rqh (s : State) (p : PortId) (g : FieldPort → FieldPort) : (s.editPort p g).rqh = s.rqh := by
  rfl
@[simp] theorem State.editPort_ppc (s : State) (p : PortId) (g : FieldPort → FieldPort) : (s.editPort p g).ppc = s.ppc := by
  rfl
@[simp] theorem State.editPort_lmc (s : State) (p : PortId) (g : FieldPort → FieldPort) : (s.editPort p g).lmc = s.lmc := by
  rfl
@[simp] theorem State.editPort_mtm (s : State) (p : PortId) (g : FieldPort → FieldPort) : (s.editPort p g).mtm = s.mtm := by
  rfl
@[simp] theorem State.editPort_ntu (s : State) (p : PortId) (g : FieldPort → FieldPort) : (s.editPort p g).ntu = s.ntu := by
  rfl
@[simp] theorem State.editPort_pending (s : State) (p : PortId) (g : FieldPort → FieldPort) : (s.editPort p g).pending = s.pending := by
  rfl
@[simp] theorem State.portError_srt (s : State) (p : PortId) : (s.portError p).srt = s.srt := by
  rfl
@[simp] theorem State.portError_rqh (s : State) (p : PortId) : (s.portError p).rqh = s.rqh := by
  rfl
@[simp] theorem State.portError_ppc (s : State) (p : PortId) : (s.portError p).ppc = s.ppc := by
  rfl
@[simp] theorem State.portError_lmc (s : State) (p : PortId) : (s.portError p).lmc = s.lmc := by
  rfl
@[simp] theorem State.portError_mtm (s : State) (p : PortId) : (s.portError p).mtm = s.mtm := by
  rfl
@[simp] theorem State.portError_ntu (s : State) (p : PortId) : (s.portError p).ntu = s.ntu := by
  rfl
@[simp] theorem State.portError_pending (s : State) (p : PortId) : (s.portError p).pending = s.pending := by
  rfl
@[simp] theorem State.serve_restart_pending (s : State) : (s.serve .restart restartOwner).pending = s.pending := by
  unfold State.serve; repeat' split
  all_goals simp [restartOwner, Answer.ok, Answer.reason, State.restarted]
  split <;> simp
@[simp] theorem State.finishRestart_pending (s : State) : s.finishRestart.pending = s.pending := by
  unfold State.finishRestart; split <;> simp
/-- No RESTART was taken in IDLE: none takes effect early. -/
theorem State.finishRestart_none (s : State) (h : s.restartGranted = false) : s.finishRestart = s := by
  simp [State.finishRestart, h]
/-- A RESTART that was taken in IDLE takes effect (R124). -/
theorem State.finishRestart_granted (s : State) (h : s.restartGranted = true) :
    s.finishRestart = s.serve .restart restartOwner := by simp [State.finishRestart, h]
/-- A good frame finds the state that a RESTART taken in IDLE leaves (R124). -/
theorem State.receivePort_after (s : State) (p : PortId) (f : WireFrame) (h : portFrameGood f = true)
    (hd : s.finishRestart.restartGranted = false) : s.receivePort p f = s.finishRestart.receivePort p f := by
  simp [State.receivePort, h, State.finishRestart_none _ hd]
@[simp] theorem State.receivePort_pending (s : State) (p : PortId) (f : WireFrame) : (s.receivePort p f).pending = s.pending := by
  unfold State.receivePort; split <;> simp
@[simp] theorem State.editPack_lki (s : State) (x : Slot) (g : Pack → Pack) : (s.editPack x g).lki = s.lki := by
  rfl
@[simp] theorem State.editPack_srt (s : State) (x : Slot) (g : Pack → Pack) : (s.editPack x g).srt = s.srt := by
  rfl
@[simp] theorem State.editPack_rqh (s : State) (x : Slot) (g : Pack → Pack) : (s.editPack x g).rqh = s.rqh := by
  rfl
@[simp] theorem State.editPack_lmc (s : State) (x : Slot) (g : Pack → Pack) : (s.editPack x g).lmc = s.lmc := by
  rfl
@[simp] theorem State.editPack_mtm (s : State) (x : Slot) (g : Pack → Pack) : (s.editPack x g).mtm = s.mtm := by
  rfl
@[simp] theorem State.editPack_ntu (s : State) (x : Slot) (g : Pack → Pack) : (s.editPack x g).ntu = s.ntu := by
  rfl
@[simp] theorem State.editPack_pending (s : State) (x : Slot) (g : Pack → Pack) : (s.editPack x g).pending = s.pending := by
  rfl
@[simp] theorem State.endHoldOff_srt (s : State) : (s.endHoldOff).srt = s.srt := by
  simp [State.endHoldOff]
@[simp] theorem State.endHoldOff_rqh (s : State) : (s.endHoldOff).rqh = s.rqh := by
  simp [State.endHoldOff]
@[simp] theorem State.endHoldOff_ppc (s : State) : (s.endHoldOff).ppc = s.ppc := by
  simp [State.endHoldOff]
@[simp] theorem State.endHoldOff_lmc (s : State) : (s.endHoldOff).lmc = s.lmc := by
  simp [State.endHoldOff]
@[simp] theorem State.endHoldOff_mtm (s : State) : (s.endHoldOff).mtm = s.mtm := by
  simp [State.endHoldOff]
@[simp] theorem State.endHoldOff_pending (s : State) : (s.endHoldOff).pending = s.pending := by
  simp [State.endHoldOff]
@[simp] theorem State.holdNotices_srt (s : State) (d : Nat) : (s.holdNotices d).srt = s.srt := by
  unfold State.holdNotices; repeat' split
  all_goals simp
@[simp] theorem State.holdNotices_rqh (s : State) (d : Nat) : (s.holdNotices d).rqh = s.rqh := by
  unfold State.holdNotices; repeat' split
  all_goals simp
@[simp] theorem State.holdNotices_ppc (s : State) (d : Nat) : (s.holdNotices d).ppc = s.ppc := by
  unfold State.holdNotices; repeat' split
  all_goals simp
@[simp] theorem State.holdNotices_lmc (s : State) (d : Nat) : (s.holdNotices d).lmc = s.lmc := by
  unfold State.holdNotices; repeat' split
  all_goals simp
@[simp] theorem State.holdNotices_mtm (s : State) (d : Nat) : (s.holdNotices d).mtm = s.mtm := by
  unfold State.holdNotices; repeat' split
  all_goals simp
@[simp] theorem State.holdNotices_pending (s : State) (d : Nat) : (s.holdNotices d).pending = s.pending := by
  unfold State.holdNotices; repeat' split
  all_goals simp
@[simp] theorem State.collide_rqh (s : State) (h : Bool) : (s.collide h).rqh = s.rqh := by
  unfold State.collide; split <;> simp
@[simp] theorem State.collide_ppc (s : State) (h : Bool) : (s.collide h).ppc = s.ppc := by
  unfold State.collide; split <;> simp
@[simp] theorem State.collide_lmc (s : State) (h : Bool) : (s.collide h).lmc = s.lmc := by
  unfold State.collide; split <;> simp
@[simp] theorem State.collide_mtm (s : State) (h : Bool) : (s.collide h).mtm = s.mtm := by
  unfold State.collide; split <;> simp
@[simp] theorem State.collide_pending (s : State) (h : Bool) : (s.collide h).pending = s.pending := by
  unfold State.collide; split <;> simp
theorem State.collide_onlyNotice (s : State) (h : Bool) : s.lki.onlyNotice (s.collide h).lki := by
  unfold State.collide
  split
  · simpa using State.raise_onlyNotice (s.setSrt { s.srt with overrideEntry := none }) [.routeCollision] []
  · exact Lki.onlyNotice_refl _
/-- SRT after a possible collision (R21). -/
@[simp] theorem State.collide_srt (s : State) (h : Bool) :
    (s.collide h).srt = { s.srt with overrideEntry := if h then none else s.srt.overrideEntry } := by
  unfold State.collide; split <;> simp_all
theorem State.holdNotices_onlyNotice (s : State) (d : Nat) : s.lki.onlyNotice (s.holdNotices d).lki := by
  unfold State.holdNotices
  repeat' split
  all_goals first | exact Lki.onlyNotice_refl _ | exact State.judge_onlyNotice (s.setNtu { s.ntu with holdOff := none })

/-! ### Ports -/

@[simp] theorem FieldPorts.get_set (p : FieldPorts) (i : PortId) (x : FieldPort) : (p.set i x).get i = x := by
  cases i <;> rfl
theorem FieldPorts.get_set_ne (p : FieldPorts) (i j : PortId) (x : FieldPort) (h : j ≠ i) : (p.set i x).get j = p.get j := by
  cases i <;> cases j <;> first | rfl | exact absurd rfl h

/-! ### The entry for a source ID -/

theorem RouteEntry.takes_iff (e : RouteEntry) (id : Byte) :
    e.takes id = true ↔ e.valid = true ∧ id &&& e.mask = e.matchId &&& e.mask := by
  simp [RouteEntry.takes]

/-- The lowest-index match of the table is the entry for the source ID (R2). -/
theorem Srt.entryFor_iff (r : Srt) (id : Byte) (i : Nat) (e : RouteEntry) :
    r.entryFor id i e ↔ matchIndex r.table id = some i ∧ r.table[i]? = some e := by
  unfold Srt.entryFor matchIndex
  rw [List.findIdx?_eq_some_iff_getElem]
  constructor
  · rintro ⟨he, hv, hm, hlow⟩
    obtain ⟨hi, rfl⟩ := List.getElem?_eq_some_iff.1 he
    refine ⟨⟨hi, (RouteEntry.takes_iff _ _).2 ⟨hv, hm⟩, fun j hj ht => ?_⟩, he⟩
    obtain ⟨hv', hm'⟩ := (RouteEntry.takes_iff _ _).1 ht
    exact hlow j _ hj (List.getElem?_eq_getElem _) hv' hm'
  · rintro ⟨⟨hi, ht, hlow⟩, he⟩
    obtain ⟨_, rfl⟩ := List.getElem?_eq_some_iff.1 he
    obtain ⟨hv, hm⟩ := (RouteEntry.takes_iff _ _).1 ht
    refine ⟨he, hv, hm, fun j e' hj he' hv' hm' => ?_⟩
    obtain ⟨_, rfl⟩ := List.getElem?_eq_some_iff.1 he'
    exact hlow j hj ((RouteEntry.takes_iff _ _).2 ⟨hv', hm'⟩)

/-- The search finds nothing exactly where no valid entry matches (R2, R7). -/
theorem Srt.noEntry_iff (r : Srt) (id : Byte) : r.noEntry id ↔ matchIndex r.table id = none := by
  unfold Srt.noEntry matchIndex
  rw [List.findIdx?_eq_none_iff]
  exact ⟨fun h e he => Bool.eq_false_iff.2 fun ht => h e he ((RouteEntry.takes_iff _ _).1 ht).1 ((RouteEntry.takes_iff _ _).1 ht).2,
    fun h e he hv hm => by simpa [(RouteEntry.takes_iff e id).2 ⟨hv, hm⟩] using h e he⟩

end Sys2Proof.Machine
end

