-- ==== Sys2Proof/Laws/Selection.lean ====
section
/-! SUPPORT. What a selection run, a transfer and the switches of the bridge do to PPC (R33 to R36, R52, R53). -/

namespace Sys2Proof.Machine

theorem Ppc.onlySelection_refl (p : Ppc) : p.onlySelection p := rfl

theorem Ppc.onlySelection_trans {a b c : Ppc} (h1 : a.onlySelection b) (h2 : b.onlySelection c) : a.onlySelection c := by
  unfold Ppc.onlySelection at *
  rw [h2, h1]

theorem Pack.onlySelected_refl (k : Pack) : k.onlySelected k := .inl rfl

theorem Ppc.closeBridge_onlySelection (p : Ppc) : p.onlySelection p.closeBridge := by
  unfold Ppc.closeBridge; split <;> rfl
theorem Ppc.openBridge_onlySelection (p : Ppc) : p.onlySelection p.openBridge := rfl
theorem Ppc.openBridgeIfFree_onlySelection (p : Ppc) : p.onlySelection p.openBridgeIfFree := by
  unfold Ppc.openBridgeIfFree; split <;> rfl
theorem Ppc.setPack_onlySelection (p : Ppc) (x : Slot) (k : Pack) : p.onlySelection (p.setPack x k) := by
  cases x <;> rfl
theorem Ppc.endTransfer_onlySelection (p : Ppc) (new : Option Slot) : p.onlySelection (p.endTransfer new) := by
  rcases new with _ | ⟨⟨⟩⟩ <;> rfl
theorem Ppc.selectDc_onlySelection (p : Ppc) : p.onlySelection p.selectDc := by
  unfold Ppc.selectDc; dsimp only; split <;> rfl

/-- A selection run changes only the pack records, the switches and the settle timer. -/
theorem Ppc.select_onlySelection (p : Ppc) : p.onlySelection p.select := by
  unfold Ppc.select
  split
  · exact p.selectDc_onlySelection
  · split
    · split
      · exact Ppc.onlySelection_trans (Ppc.onlySelection_trans p.closeBridge_onlySelection (Ppc.setPack_onlySelection _ _ _)) (Ppc.endTransfer_onlySelection _ _)
      · rfl
    · split
      · exact Ppc.onlySelection_trans p.closeBridge_onlySelection (Ppc.endTransfer_onlySelection _ _)
      · rfl

/-! ### Pack records -/

@[simp] theorem Ppc.closeBridge_pack (p : Ppc) (x : Slot) : p.closeBridge.pack x = p.pack x := by
  unfold Ppc.closeBridge; split <;> cases x <;> rfl
@[simp] theorem Ppc.openBridgeIfFree_pack (p : Ppc) (x : Slot) : p.openBridgeIfFree.pack x = p.pack x := by
  unfold Ppc.openBridgeIfFree; split <;> cases x <;> rfl
@[simp] theorem Ppc.endTransfer_none_pack (p : Ppc) (x : Slot) : (p.endTransfer none).pack x = p.pack x := by cases x <;> rfl
@[simp] theorem Ppc.endTransfer_some_pack (p : Ppc) (x : Slot) :
    (p.endTransfer (some x)).pack x = { p.pack x with state := .online, switch := true } := by cases x <;> rfl
theorem Ppc.endTransfer_some_pack_ne (p : Ppc) (x y : Slot) (h : y ≠ x) : (p.endTransfer (some x)).pack y = p.pack y := by
  cases x <;> cases y <;> first | rfl | exact absurd rfl h

/-- The pack that selection chooses is STANDBY, has the larger energy, and DCIN_OK is clear (R33 step 3). -/
theorem Ppc.choose_some (p : Ppc) (y : Slot) (h : p.choose = some y) :
    p.dcinOk = false ∧ (p.pack y).state = .standby
      ∧ ((p.pack (otherSlot y)).state = .standby → (p.pack (otherSlot y)).energy ≤ (p.pack y).energy) := by
  unfold Ppc.choose at h
  split at h
  · cases h
  · next hd =>
    have hd : p.dcinOk = false := by simpa using hd
    split at h
    · next ha =>
      split at h <;> cases h
      · next hb =>
        simp only [Bool.and_eq_true, decide_eq_true_eq] at hb
        exact ⟨hd, hb.1, fun _ => hb.2.le⟩
      · next hb =>
        refine ⟨hd, ha, fun hs => ?_⟩
        simp only [otherSlot, Ppc.pack] at hs ⊢
        simp [hs] at hb; exact hb
    · next ha =>
      split at h
      · next hb => cases h; exact ⟨hd, hb, fun hs => absurd hs ha⟩
      · cases h

/-- With no pack chosen, DCIN_OK is set or no pack is STANDBY (R33 step 4). -/
theorem Ppc.choose_none (p : Ppc) (h : p.choose = none) (hd : p.dcinOk = false) (x : Slot) : (p.pack x).state ≠ .standby := by
  unfold Ppc.choose at h
  rw [if_neg (by simp [hd])] at h
  split at h
  · split at h <;> cases h
  · next ha =>
    split at h
    · cases h
    · next hb => cases x <;> assumption

theorem Ppc.onlineSlot_some (p : Ppc) (x : Slot) (h : p.onlineSlot = some x) : (p.pack x).state = .online := by
  unfold Ppc.onlineSlot at h
  split at h
  · cases h; assumption
  · split at h <;> cases h; assumption
theorem Ppc.onlineSlot_none (p : Ppc) (h : p.onlineSlot = none) (x : Slot) : (p.pack x).state ≠ .online := by
  unfold Ppc.onlineSlot at h
  split at h
  · cases h
  · split at h
    · cases h
    · cases x <;> assumption

theorem Pack.standDown_onlySelected (k : Pack) : k.onlySelected k.standDown := by
  unfold Pack.standDown
  split
  · next h => exact .inr (.inr ⟨h, rfl⟩)
  · exact .inl rfl

/-- All that a selection run does to a pack record: it stands down, is closed, or stays (R33). -/
theorem Ppc.select_pack (p : Ppc) (x : Slot) : (p.pack x).onlySelected (p.select.pack x) := by
  unfold Ppc.select
  split
  · have : p.selectDc.pack x = (p.pack x).standDown := by unfold Ppc.selectDc; dsimp only; split <;> cases x <;> rfl
    rw [this]; exact Pack.standDown_onlySelected _
  · split
    · next y hy =>
      have hy' := p.onlineSlot_some y hy
      split
      · next hr =>
        simp only [Ppc.rotates, Bool.and_eq_true, beq_iff_eq] at hr
        by_cases hx : x = otherSlot y
        · subst hx
          rw [Ppc.endTransfer_some_pack, Ppc.pack_setPack_other, Ppc.closeBridge_pack]
          exact .inr (.inl ⟨hr.1.2, rfl⟩)
        · have hx' : x = y := by cases x <;> cases y <;> simp_all [otherSlot]
          subst hx'
          rw [Ppc.endTransfer_some_pack_ne _ _ _ hx, Ppc.pack_setPack]
          exact .inr (.inr ⟨hy', rfl⟩)
      · exact .inl rfl
    · split
      · next y hy =>
        by_cases hx : x = y
        · subst hx
          rw [Ppc.endTransfer_some_pack, Ppc.closeBridge_pack]
          exact .inr (.inl ⟨(p.choose_some _ hy).2.1, rfl⟩)
        · rw [Ppc.endTransfer_some_pack_ne _ _ _ hx, Ppc.closeBridge_pack]; exact .inl rfl
      · exact .inl rfl

/-- A pack that is neither STANDBY nor ONLINE plays no part in selection (R33). -/
theorem Ppc.select_pack_eq (p : Ppc) (x : Slot) (h1 : (p.pack x).state ≠ .standby) (h2 : (p.pack x).state ≠ .online) :
    p.select.pack x = p.pack x := by
  rcases p.select_pack x with h | h | h
  · exact h
  · exact absurd h.1 h1
  · exact absurd h.1 h2

/-- A transfer from pack x leaves the given record in its slot unless that record is STANDBY. -/
theorem Ppc.transferFrom_pack (p : Ppc) (x : Slot) (k : Pack) (h : k.state ≠ .standby) :
    (p.transferFrom x k).pack x = k := by
  unfold Ppc.transferFrom
  dsimp only
  cases hc : (p.closeBridge.setPack x k).choose with
  | none => simp
  | some y =>
    have hy := (Ppc.choose_some _ y hc).2.1
    by_cases hx : x = y
    · subst hx; rw [Ppc.pack_setPack] at hy; exact absurd hy h
    · rw [Ppc.endTransfer_some_pack_ne _ _ _ hx, Ppc.pack_setPack]

/-- A transfer from pack x closes the other pack if DCIN_OK is clear and it is STANDBY, and leaves it alone otherwise. -/
theorem Ppc.transferFrom_other (p : Ppc) (x : Slot) (k : Pack) (h : k.state ≠ .standby) :
    (p.transferFrom x k).pack (otherSlot x)
      = if p.dcinOk = false ∧ (p.pack (otherSlot x)).state = .standby
        then { p.pack (otherSlot x) with state := .online, switch := true } else p.pack (otherSlot x) := by
  have hd : (p.closeBridge.setPack x k).dcinOk = p.dcinOk := by
    unfold Ppc.closeBridge; split <;> cases x <;> rfl
  unfold Ppc.transferFrom
  dsimp only
  cases hc : (p.closeBridge.setPack x k).choose with
  | none =>
    rw [if_neg, Ppc.endTransfer_none_pack, Ppc.pack_setPack_other, Ppc.closeBridge_pack]
    rintro ⟨h1, h2⟩
    have := Ppc.choose_none _ hc (hd.trans h1) (otherSlot x)
    simp [h2] at this
  | some y =>
    have hy := Ppc.choose_some _ y hc
    by_cases hx : x = y
    · subst hx; rw [Ppc.pack_setPack] at hy; exact absurd hy.2.1 h
    · have hy2 : y = otherSlot x := by cases x <;> cases y <;> simp_all [otherSlot]
      subst hy2
      simp only [Ppc.pack_setPack_other, Ppc.closeBridge_pack] at hy
      rw [if_pos ⟨hd.symm.trans hy.1, hy.2.1⟩, Ppc.endTransfer_some_pack, Ppc.pack_setPack_other, Ppc.closeBridge_pack]

theorem Ppc.transferFrom_onlySelection (p : Ppc) (x : Slot) (k : Pack) : p.onlySelection (p.transferFrom x k) :=
  Ppc.onlySelection_trans (Ppc.onlySelection_trans p.closeBridge_onlySelection (Ppc.setPack_onlySelection _ _ _))
    (Ppc.endTransfer_onlySelection _ _)

/-- The end of a pack's service: an ONLINE pack leaves by a transfer, any other record is replaced, and selection re-runs
(R31, R40). The record stays as it was given. -/
theorem Ppc.leave_pack (p : Ppc) (x : Slot) (k : Pack) (h1 : k.state ≠ .standby) (h2 : k.state ≠ .online) :
    (if (p.pack x).state = .online then p.transferFrom x k else p.setPack x k).select.pack x = k := by
  have : (if (p.pack x).state = .online then p.transferFrom x k else p.setPack x k).pack x = k := by
    split
    · exact p.transferFrom_pack x k h1
    · simp
  rw [Ppc.select_pack_eq, this] <;> rwa [this]

theorem Ppc.leave_onlySelection (p : Ppc) (x : Slot) (k : Pack) :
    p.onlySelection (if (p.pack x).state = .online then p.transferFrom x k else p.setPack x k).select := by
  refine Ppc.onlySelection_trans ?_ (Ppc.select_onlySelection _)
  split
  · exact p.transferFrom_onlySelection x k
  · exact p.setPack_onlySelection x k

/-- A selection run keeps an ONLINE pack whose other slot is not STANDBY (R33 step 2). -/
theorem Ppc.select_keeps (p : Ppc) (x : Slot) (hd : p.dcinOk = false) (ho : (p.pack x).state = .online)
    (h1 : (p.pack (otherSlot x)).state ≠ .standby) (h2 : (p.pack (otherSlot x)).state ≠ .online) : p.select = p := by
  unfold Ppc.select
  rw [if_neg (by simp [hd])]
  have hos : p.onlineSlot = some x := by
    unfold Ppc.onlineSlot
    cases x <;> simp_all [otherSlot, Ppc.pack]
  rw [hos]
  simp [Ppc.rotates, h1]

/-- The other slot when a pack leaves: it is closed, stands down, or stays. -/
theorem Ppc.leave_other (p : Ppc) (x : Slot) (k : Pack) (h1 : k.state ≠ .standby) (h2 : k.state ≠ .online) :
    (p.pack (otherSlot x)).onlySelected
      ((if (p.pack x).state = .online then p.transferFrom x k else p.setPack x k).select.pack (otherSlot x)) := by
  split
  · have ht := p.transferFrom_other x k h1
    have hs := (p.transferFrom x k).select_pack (otherSlot x)
    split at ht
    · next hc =>
      have hd : (p.transferFrom x k).dcinOk = p.dcinOk := by rw [p.transferFrom_onlySelection x k]
      have hx := p.transferFrom_pack x k h1
      rw [Ppc.select_keeps _ (otherSlot x) (hd.trans hc.1) (by rw [ht]) (by rw [otherSlot_otherSlot, hx]; exact h1)
        (by rw [otherSlot_otherSlot, hx]; exact h2), ht]
      exact .inr (.inl ⟨hc.2, rfl⟩)
    · rwa [ht] at hs
  · have := (p.setPack x k).select_pack (otherSlot x)
    rwa [Ppc.pack_setPack_other] at this

/-! ### The end of an event -/

theorem Ppc.settle_onlySelection (before p : Ppc) (out : Nat) : p.onlySelection (before.settle p out) := by
  unfold Ppc.onlySelection Ppc.settle
  dsimp only
  have h : ∀ b : Bridge, b.fitted = p.bridge.fitted → b.last = p.bridge.last → b.low = p.bridge.low →
      b = { p.bridge with switch := b.switch, alone := b.alone, window := b.window, exhausted := b.exhausted } := by
    rintro ⟨⟩ h1 h2 h3; simp_all
  congr 1
  apply h
  · exact Ppc.settle_fitted before p out
  · exact Ppc.settle_last before p out
  · exact Ppc.settle_low before p out

theorem State.ppcSettle_onlySelection (s : State) (p : Ppc) (ps : List Event) : p.onlySelection (s.ppcSettle p ps).ppc := by
  unfold State.ppcSettle
  dsimp only
  split
  · simpa using Ppc.settle_onlySelection _ _ _
  · simp only [State.deliverCeiling_ppc, State.ppcQuiet_ppc]
    exact Ppc.onlySelection_trans (Ppc.settle_onlySelection s.ppc p s.lmc.out) rfl

theorem State.ppcEnd_onlySelection (s : State) (p : Ppc) (ps : List Event) : p.onlySelection (s.ppcEnd p ps).ppc := by
  unfold State.ppcEnd
  split
  · simpa using Ppc.onlySelection_refl p
  · exact s.ppcSettle_onlySelection p ps

theorem Bridge.withWindow_exhausted (b : Bridge) (ms : Nat) (h : (b.withWindow ms).exhausted = false) :
    b.exhausted = false := by
  unfold Bridge.withWindow at h; split at h
  · cases h
  · exact h

/-- A settlement leaves the budget of the switches, records and settings (R56, R57). -/
theorem Ppc.settle_settled (before p : Ppc) (out : Nat) : (before.settle p out).settled := by
  have hx : (before.settle p out).bridge.exhausted = false → (before.settleBridge p).exhausted = false := by
    show (match before.windowStart p with
      | some last => (before.settleBridge p).withWindow _
      | none => before.settleBridge p).exhausted = false → _
    cases before.windowStart p with
    | none => exact id
    | some last => exact Bridge.withWindow_exhausted _ _
  have hc : (before.settle p out).budget.cPower = if (before.settle p out).bridge.exhausted then 0
      else if (before.settleBridge p).exhausted then 0 else p.backlightAllowance p.availablePower * 4095 / p.pBlMax := rfl
  refine ⟨?_, rfl, ?_⟩
  · show p.availablePower = _
    unfold Ppc.availablePower Ppc.onlineSlot Ppc.carriesAlone Ppc.mainClosed
    simp only [Ppc.settle_swDc, Ppc.settle_packA, Ppc.settle_packB, Ppc.settle_switch, Ppc.settle_bridgeSet,
      Ppc.settle_power]
    congr 1
    · congr 1
      by_cases ha : p.packA.state = .online
      · simp [ha, Ppc.pack]
      · by_cases hb : p.packB.state = .online <;> simp [ha, hb, Ppc.pack]
    · cases p.bridge.switch <;> cases p.swDc <;> cases p.packA.switch <;> cases p.packB.switch <;> rfl
  · rw [hc]
    cases he : (before.settle p out).bridge.exhausted with
    | true => rfl
    | false => rw [hx he]; rfl

/-- Every event that ends with a settlement leaves the budget settled (R56). -/
theorem State.ppcSettle_settled (s : State) (p : Ppc) (ps : List Event) : (s.ppcSettle p ps).ppc.settled := by
  unfold State.ppcSettle
  dsimp only
  split
  · simpa using Ppc.settle_settled _ _ _
  · simp only [State.deliverCeiling_ppc, State.ppcQuiet_ppc]
    exact Ppc.settle_settled s.ppc p s.lmc.out

/-- The frame of an event of PPC. -/
theorem State.ppcEnd_only (s : State) (p : Ppc) (ps : List Event) : OnlyPower s (s.ppcEnd p ps) ps :=
  ⟨⟨by simp, by simp, by simp, by simp, s.ppcEnd_onlyNotice p ps⟩, s.ppcEnd_onlyTarget p ps, s.ppcEnd_onlyEvents p ps⟩
theorem State.ppcSettle_only (s : State) (p : Ppc) (ps : List Event) : OnlyPower s (s.ppcSettle p ps) ps :=
  ⟨⟨by simp, by simp, by simp, by simp, s.ppcSettle_onlyNotice p ps⟩, s.ppcSettle_onlyTarget p ps,
    s.ppcSettle_onlyEvents p ps⟩
theorem State.ppcQuiet_only (s : State) (p : Ppc) (ps : List Event) : OnlyPower s (s.ppcQuiet p ps) ps :=
  ⟨⟨by simp, by simp, by simp, by simp, s.ppcQuiet_onlyNotice p ps⟩, by simpa using Lmc.onlyTarget_refl s.lmc,
    Ntu.onlyEvents_mono (s.ppcQuiet_onlyEvents p ps) (by simp; tauto)⟩

end Sys2Proof.Machine
end

