-- ==== Sys2Proof/WellFormed.lean ====
section
/-! DEFINITION. Which operands the outside can really send: a frame's body is as long as its length byte says, and it is
absent where the receiver rejects the frame at its header (R164). The machine is total: an ill-formed frame is treated
as a frame that fails its checks, and nothing rests on it. -/

namespace Sys2Proof

/-- The body is taken only past a header that passes (R164: kind REQUEST, length 2 to 96). -/
def WireFrame.uplinkShape (f : WireFrame) : Bool :=
  if f.kind.toNat % 16 == 8 && 2 ≤ f.len.toNat && f.len.toNat ≤ 96 then f.body.length == f.len.toNat
  else f.body == [] && f.crc == 0#16

/-- The same at a field port (R169: kind SAMPLE, length 3 to 48). -/
def WireFrame.portShape (f : WireFrame) : Bool :=
  if f.kind.toNat % 16 == 1 && 3 ≤ f.len.toNat && f.len.toNat ≤ 48 then f.body.length == f.len.toNat
  else f.body == [] && f.crc == 0#16

/-- Well-formed commands. -/
def Instr.wellFormed : Instr → Bool
  | .requestFrameReceived f => f.uplinkShape
  | .uplinkFrameDiscarded f => f.uplinkShape
  | .sampleFrameReceived _ f => f.portShape
  | .badSampleFrame _ f => f.portShape
  | _ => true

end Sys2Proof
end

