-- ==== Sys2Proof/Tests/Slice0.lean ====
section
/-! SUPPORT. Tests: ill-formed operands, worked examples of the spec, and for each statement with hypotheses a concrete
state that meets them. Expected values come from the spec's tables, examples and rules, as each comment says. -/

namespace Sys2Proof.Machine.Tests

-- one theorem after the other: each kernel evaluation would otherwise hold a thread of its own
set_option Elab.async false

/-! ### States and frames -/

/-- After power-on reset with both packs present and a cell fitted, no DC input: the bridge carries alone. -/
def bridged : State := State.powerOn ⟨true, true, false, false, false, true⟩ []
/-- A gauge sample of 16 V, 1 A, 25 degrees and the given energy. -/
def gauge (energy : Nat) : GaugeSample :=
  { voltage := 16000, current := 1000, temperature := 250, energy := energy, fault := false, charging := false }
def State.editPack (s : State) (x : Slot) (g : Pack → Pack) : State := s.setPpc (s.ppc.setPack x (g (s.ppc.pack x)))
/-- Pack A in the given state with a sample. -/
def withA (st : PackState) : State :=
  State.editPack bridged .a fun k => { k with state := st, presence := st != .empty, sample := some (gauge 40000) }
/-- Pack A ONLINE and pack B STANDBY, SW_BR open. -/
def carrying : State :=
  let s := State.editPack (withA .online) .a fun k => { k with switch := true, allowance := 30000 }
  let s := State.editPack s .b fun k => { k with state := .standby, sample := some (gauge 30000), allowance := 30000 }
  s.setPpc { s.ppc with bridge := { s.ppc.bridge with switch := false, alone := false, window := .none } }
/-- Pack A ONLINE and alone, a cell fitted with the given last sample. -/
def lone (charge : Option Nat) (exhausted : Bool) : State :=
  let s := State.editPack (withA .online) .a fun k => { k with switch := true, allowance := 30000 }
  s.setPpc { s.ppc with bridge := { s.ppc.bridge with
    switch := false, alone := false, window := .none, exhausted := exhausted
    last := charge.map fun c => { voltage := 3700, charge := c, fault := false } } }
/-- The phase FALLING with an open record. -/
def falling : State :=
  bridged.setMtm { bridged.mtm with
    phase := .falling, live := true, staleTimer := some 50, nextSeq := 1, accelIndex := some 0
    ring := [DropRecord.opened 0 .fallAborted 8 { source := .bridge, swapInProgress := false }] }
/-- The phase HOLD with a closed record and PROTECT_HOLD running. -/
def holding : State :=
  bridged.setMtm { bridged.mtm with
    phase := .hold, live := true, nextSeq := 1, holdTimer := some 9
    ring := [{ DropRecord.opened 0 .fallAborted 8 { source := .bridge, swapInProgress := false } with isOpen := false }] }
/-- A RESTART with tag 7 in progress, taken with the phase copy `taken`, before another request, and the copy now. -/
def restarting (taken copy : Phase) : State :=
  State.reset.setRqh { queue := [⟨8#8, 1#8, []⟩], inProgress := some ⟨7#8, 0x7F#8, []⟩, phaseCopy := copy, takenIn := taken }
/-- The given request in progress with tag 7. -/
def asking (c : RequestCode) (args : List Byte) : State :=
  State.reset.setRqh { queue := [], inProgress := some ⟨7#8, c.byte, args⟩, phaseCopy := .idle, takenIn := .idle }

def sampleFrame (source kind : Nat) (payload : List Byte) : WireFrame :=
  frameOf 1 (BitVec.ofNat 8 source :: 0#8 :: BitVec.ofNat 8 kind :: payload)
def accelFrame (x y z : Int) : WireFrame := sampleFrame 0x10 1 (sle16 x ++ sle16 y ++ sle16 z)
def lightFrame (count range : Nat) : WireFrame := sampleFrame 0x20 2 (le16 count ++ b8 range)
def gaugeFrame (g : GaugeSample) : WireFrame :=
  sampleFrame 0x30 3 (le16 g.voltage ++ sle16 g.current ++ sle16 g.temperature ++ le32 g.energy ++ b8 g.fault.toNat)

/-- The state that a command leaves. -/
def after (i : Instr) (s : State) : State :=
  match exec i s with
  | .next t => t
  | _ => s

/-! ### Ill-formed operands (R164, R169) -/

/-- A REQUEST frame whose body is shorter than its length byte. -/
theorem test_short_request_is_ill_formed : (Instr.requestFrameReceived ⟨8#8, 4#8, [1#8, 1#8], 0#16⟩).wellFormed = false := by
  decide
/-- A frame of another kind is discarded at its header, so it brings no body. -/
theorem test_body_after_bad_header_is_ill_formed : (Instr.uplinkFrameDiscarded ⟨1#8, 2#8, [1#8, 1#8], 0#16⟩).wellFormed = false := by
  decide
theorem test_short_sample_is_ill_formed : (Instr.sampleFrameReceived .fp0 ⟨1#8, 9#8, [1#8], 0#16⟩).wellFormed = false := by
  decide
theorem test_long_body_at_port_is_ill_formed : (Instr.badSampleFrame .fp0 ⟨1#8, 49#8, [1#8], 0#16⟩).wellFormed = false := by
  decide
theorem test_built_frame_is_well_formed : (Instr.requestFrameReceived (frameOf 8 [5#8, 1#8])).wellFormed = true := by
  decide
/-- No row of the table has bits. -/
theorem test_no_word_decodes : decodeTableWord 16 3 = none := rfl

/-! ### Formats -/

/-- The check value of this CRC over the digits 1 to 9, as CRC catalogues give it (PRESUMED: not in the spec). -/
theorem test_crc_check_value :
    crc16 [0x31#8, 0x32#8, 0x33#8, 0x34#8, 0x35#8, 0x36#8, 0x37#8, 0x38#8, 0x39#8] = 0x29B1#16 := by decide +kernel
/-- Each request code byte names its own request (section 10.6). -/
theorem test_request_codes_are_distinct : RequestCode.all.all (fun c => RequestCode.ofByte c.byte == some c) = true := by decide
/-- A flipped bit of the body fails the CRC (R164). -/
theorem test_flipped_bit_fails : uplinkValid { frameOf 8 [5#8, 1#8] with body := [5#8, 0#8] } = false := by decide +kernel

/-! ### Worked examples of the spec -/

/-- R66: DC input present gives C_power 4095. -/
theorem test_first_ceiling_dc : (State.powerOn ⟨false, false, false, false, true, false⟩ []).lmc.cPower = 4095 := by
  decide +kernel
/-- R66: the bridge alone gives C_power 2559. -/
theorem test_first_ceiling_bridge : bridged.lmc.cPower = 2559 := by decide +kernel
/-- Table 4-4, second row: the sun overhead. -/
theorem test_combination : ({ Lmc.initial with
    front := { LightRecord.factory with live := true, lux := some 2000 }
    top := { LightRecord.factory with live := true, lux := some 40000 } } : Lmc).combine = some 15000 := by decide
/-- Table 4-5. -/
theorem test_log_conversion :
    [0, 1, 5, 300, 1000, 100000, 150000, 200000].map logLux = [0, 0, 576, 2092, 2548, 4230, 4388, 4486] := by decide +kernel
/-- Table 4-6. -/
theorem test_filter : [(2092, 4388), (3240, 4388), (4244, 4388), (4370, 4388), (4370, 2548), (4257, 2548)].map
    (fun x => filterStep .factory x.1 x.2) = [3240, 3814, 4316, 4370, 4257, 4151] := by decide
/-- Table 4-8. -/
theorem test_lux : [(0, 1), (1, 0), (10, 0), (1000, 1), (40000, 2), (30000, 3)].map (fun x => luxOf .factory x.1 x.2)
    = [0, 0, 2, 1000, 160000, 200000] := by decide
/-- Table 5-3, third row: the rounding toward y on a falling segment. -/
theorem test_interpolation :
    ({ Curve.factory with points := [⟨1000, 2000⟩, ⟨1300, 1000⟩] } : Curve).interpolate 0 1001 = 1997 := by decide
/-- Table 6-2. -/
theorem test_magnitudes :
    [(0, 0, 1000), (0, 707, 707), (600, 600, 600), (-220, 140, 90), (5200, -7900, 2100), (-20000, 3000, 500),
      (-32768, 32767, -32768)].map (fun v : Int × Int × Int =>
        (Accel.ofPayload (sle16 v.1 ++ sle16 v.2.1 ++ sle16 v.2.2)).magnitude)
      = [1000, 972, 1050, 306, 10637, 17312, 28000] := by decide +kernel
/-- Table 3-4: the allowance by temperature at 14800 mV. -/
theorem test_allowance : [(-100 : Int), 50, 250, 500].map (fun t => 14800 * PackProfile.factory.imaxAt t / 1000)
    = [11840, 29600, 59200, 37000] := by decide
/-- Section 3.9: a charge of 900 above the reserve at a load of 18000 mW and O = 1500 gives 154801 ms. -/
theorem test_swap_window : Ppc.windowMs bridged.ppc 1200 1500 = 154801 := by decide +kernel

/-! ### One step -/

/-- R7: in default-route mode an unmatched sample of an idle part goes out at once. -/
theorem test_unmatched_is_sent :
    (after (.sampleFrameReceived .fp1 (sampleFrame 0x99 9 [])) State.reset).lki.sending = some (.sample ⟨0x99#8, 0#8, 9#8, []⟩) := by
  decide +kernel
/-- R112: 7000 lies above IMPACT_THRESH 6000. -/
theorem test_shock_opens_a_record :
    (after (.sampleFrameReceived .fp0 (accelFrame 7000 0 0)) bridged).mtm.phase = .impact := by decide +kernel
/-- R19, R110: the drop forces FORWARD on the entry that fed the accelerometer. -/
theorem test_shock_overrides_entry_0 :
    (after (.sampleFrameReceived .fp0 (accelFrame 7000 0 0)) bridged).srt.overrideEntry = some 0 := by decide +kernel
/-- R28: the first sample takes a SEATED pack to QUALIFYING with count 1. -/
theorem test_first_gauge_sample :
    ((after (.sampleFrameReceived .fp0 (gaugeFrame (gauge 5))) bridged).ppc.packA.state,
      (after (.sampleFrameReceived .fp0 (gaugeFrame (gauge 5))) bridged).ppc.packA.qual) = (.qualifying, 1) := by decide +kernel
/-- R36, R40: a handover puts the other pack ONLINE and starts TRANSFER_SETTLE. -/
theorem test_handover : ((after (.leverPress .a) carrying).ppc.packA.state, (after (.leverPress .a) carrying).ppc.packB.state,
    (after (.leverPress .a) carrying).ppc.settleTimer) = (.releasing, .online, some 20) := by decide +kernel
/-- R38: a request is not refused for the regime; a lever press is. -/
theorem test_release_in_unattended :
    (([Regime.attended, .unattended].map fun r => ((lone (some 700) false).ppc.noSuccessor .a r)) = [none, some .unattended])
    ∧ (lone (some 699) false).ppc.noSuccessor .a .attended = some .bridgeLow
    ∧ ({ (lone none false).ppc with bridge := { (lone none false).ppc.bridge with fitted := false } } : Ppc).noSuccessor .a .attended
      = some .noSuccessor := by decide +kernel
/-- R33 step 2: the ONLINE pack with an energy of 5 hands over to the one with 30000. -/
theorem test_rotation : ((after (.sampleFrameReceived .fp0 (gaugeFrame (gauge 5))) carrying).ppc.packA.state,
    (after (.sampleFrameReceived .fp0 (gaugeFrame (gauge 5))) carrying).ppc.packB.state) = (.standby, .online) := by decide +kernel
/-- R138, R140: a soft event without its enable is latched and not notified; the hard DROP_RECORDED is notified. -/
theorem test_soft_stays_hard_is_told :
    ((after .uplinkByteGap (bridged.setLki { bridged.lki with rx := .inFrame })).ntu.table[Event.linkError.code]?).map
      (fun e => (e.latched, e.notified)) = some (true, false)
    ∧ ((after .accelStaleExpiry falling).ntu.table[Event.dropRecorded.code]?).map (fun e => (e.latched, e.notified))
      = some (true, true) := by decide +kernel
/-- R114: of two equal axes the first one is the axis of the peak, with its sign. -/
theorem test_peak_axis : (after (.sampleFrameReceived .fp0 (accelFrame 0 (-7000) 7000)) bridged).mtm.ring.map (·.peak)
    = [some { magnitude := 9625, axis := .y, negative := true }] := by decide +kernel
/-- R113: eight middling samples catch the fall; no impact has set a peak. -/
theorem test_catch_has_no_peak : (after (.sampleFrameReceived .fp0 (accelFrame 1000 0 0))
    (falling.setMtm { falling.mtm with midRun := 7 })).mtm.ring.map (fun r => (r.kind, r.peak.isSome, r.capture))
      = [(.fallCaught, false, [])] := by decide +kernel
/-- R171: while reset is held the bridge switch follows BR_PRES and a lock its presence line. -/
theorem test_held_outputs : Pins.heldOutputs ⟨true, false, false, false, true, true⟩
    = { swDc := false, swA := false, swB := false, swBr := true, lockA := true, lockB := false, park := false, bl := 0 } := rfl
/-- R138, R141: an enabled event that occurs is notified at its level. -/
theorem test_hard_event_places_a_notice :
    ((after (.presenceLoss .a) carrying).lki.sending.any fun x => match x with
      | .notice n => n.level == 9
      | _ => false) = true := by decide +kernel
/-- R153: an unknown code is answered UNKNOWN. -/
theorem test_unknown_code :
    (after .unknownRequest (State.reset.setRqh { queue := [], inProgress := some ⟨7#8, 0xEE#8, []⟩, phaseCopy := .idle, takenIn := .idle })).lki.sending
      = some (.reply { tag := 7#8, status := .unknown, payload := [] }) := by decide +kernel
/-- R154: a reply is placed and taken at once by an idle transmitter; IDENTIFY begins with the part code 0x46. -/
theorem test_identify : ((after .identify (asking .identify [])).lki.sending.any fun x => match x with
      | .reply r => r.payload.head? == some 0x46#8
      | _ => false) = true := by decide +kernel
/-- R152: a request that arrives at an idle RQH is in progress at once. -/
theorem test_request_is_taken : (after (.requestFrameReceived (frameOf 8 [9#8, 1#8])) State.reset).rqh.inProgress
    = some ⟨9#8, 1#8, []⟩ := by decide +kernel
/-- Log entry 3: an empty queue lets 1 ms pass. -/
theorem test_idle_step_ticks : (match step State.reset with
    | .next t => t.lki.silenceTimer
    | _ => none) = some 2999 := by decide +kernel

/-! ### Witnesses: states that meet the hypotheses of the statements -/

/-- EmptyQueueRunsThePart: a request in progress, a due timer, and neither. -/
theorem witness_EmptyQueueRunsThePart : (asking .identify []).pending = [] ∧ (asking .identify []).rqh.inProgress.isSome = true
    ∧ (State.reset.setLki { State.reset.lki with silenceTimer := some 0 }).ownEvent = some .silenceTimeoutExpiry
    ∧ State.reset.ownEvent = none := by decide +kernel

theorem safe_bridged : bridged.ppc.safe :=
  ⟨by unfold Pack.safe; decide +kernel, by unfold Pack.safe; decide +kernel, by decide +kernel⟩
theorem witness_SwitchesStaySafe : bridged.ppc.safe ∧ ∃ t, step bridged = .next t := ⟨safe_bridged, _, rfl⟩
theorem witness_OutputStaysUnderCeiling : bridged.underCeiling ∧ ∃ t, step bridged = .next t :=
  ⟨by unfold State.underCeiling; decide +kernel, _, rfl⟩
theorem witness_BudgetStaysSettled : bridged.ppc.safe ∧ bridged.ppc.settled ∧ ∃ t, step bridged = .next t :=
  ⟨witness_SwitchesStaySafe.1, by unfold Ppc.settled; decide +kernel, _, rfl⟩
theorem witness_CopiesStayInStep : bridged.copiesAgree ∧ ∃ t, step bridged = .next t :=
  ⟨by unfold State.copiesAgree; decide +kernel, _, rfl⟩

def tableTrue (s : State) : Bool :=
  s.ntu.table.length == 32 && (List.range 32).all fun k => s.ntu.table[k]?.any fun e =>
    (!e.notified || e.latched) && e.live == s.liveOf k && (match hardLevel k with
      | some l => e.level == l
      | none => e.level ≤ 7)

theorem eventsTrue_of (s : State) (h : tableTrue s = true) : s.eventsTrue := by
  simp only [tableTrue, Bool.and_eq_true, beq_iff_eq, List.all_eq_true, List.mem_range] at h
  refine ⟨h.1, fun k e he => ?_⟩
  have hk : k < 32 := h.1 ▸ (List.getElem?_eq_some_iff.1 he).1
  have := h.2 k hk
  rw [he] at this
  simp only [Option.any_some, Bool.and_eq_true, beq_iff_eq, Bool.or_eq_true, Bool.not_eq_true'] at this
  refine ⟨fun hn => by simpa [hn] using this.1.1, this.1.2, ?_⟩
  have h3 := this.2
  split <;> rename_i hl <;> rw [hl] at h3 <;> simpa using h3

theorem witness_EventTableStaysTrue : bridged.eventsTrue ∧ ∃ t, step bridged = .next t :=
  ⟨eventsTrue_of _ (by decide +kernel), _, rfl⟩
theorem sound_bridged : bridged.srt.sound := by
  refine ⟨by decide +kernel, ?_, by decide +kernel, by decide +kernel, fun i h => by cases h⟩
  unfold RouteEntry.sound; decide +kernel
theorem witness_RouteTableStaysSound : bridged.srt.sound ∧ ∃ t, step bridged = .next t := ⟨sound_bridged, _, rfl⟩
theorem sound_queues : bridged.queuesSound := by
  refine ⟨?_, ?_, ?_, ?_, ?_, fun _ => ⟨rfl, rfl, rfl⟩, fun _ _ _ h => nomatch h⟩ <;> decide +kernel
theorem witness_QueuesStaySound : bridged.queuesSound ∧ ∃ t, step bridged = .next t := ⟨sound_queues, _, rfl⟩

def ringSound (m : Mtm) : Bool :=
  m.ring.length ≤ 8 && m.history.length ≤ 8 && m.nextSeq < 65536
    && (List.range m.ring.length).all (fun i => m.ring[i]?.all fun r =>
      r.seq < 65536 && (r.seq + (m.ring.length - i)) % 65536 == m.nextSeq && r.capture.length ≤ 16 && r.bounces ≤ 15
        && r.peak.isSome == r.lead.isSome && r.isOpen == (i + 1 == m.ring.length && m.phase.recording))
    && (!m.phase.recording || m.ring != []) && m.holdTimer.isSome == (m.phase == .hold)

theorem sound_of (m : Mtm) (h : ringSound m = true) : m.sound := by
  simp only [ringSound, Bool.and_eq_true, decide_eq_true_eq, List.all_eq_true, List.mem_range, Bool.or_eq_true,
    Bool.not_eq_true', bne_iff_ne, beq_iff_eq] at h
  obtain ⟨⟨⟨⟨⟨h1, h2⟩, h3⟩, h4⟩, h5⟩, h6⟩ := h
  refine ⟨h1, h2, h3, fun i r hr => ?_, fun hp => by simpa [hp] using h5, ?_⟩
  · have := h4 i (List.getElem?_eq_some_iff.1 hr).1
    rw [hr] at this
    simp only [Option.all_some, Bool.and_eq_true, decide_eq_true_eq, beq_iff_eq] at this
    obtain ⟨⟨⟨⟨⟨a, b⟩, c⟩, d⟩, e⟩, f⟩ := this
    exact ⟨a, b, c, d, e, by rw [f]; simp⟩
  · rw [h6]; simp

theorem witness_DropRingStaysSound : falling.mtm.sound ∧ ∃ t, step falling = .next t :=
  ⟨sound_of _ (by decide +kernel), _, rfl⟩

def fullQueue : State := State.reset.setRqh { queue := List.replicate 8 ⟨1#8, 1#8, []⟩, inProgress := none, phaseCopy := .idle, takenIn := .idle }

/-- Both clauses at the boundary of 8 queued requests, in either regime and at either state of the busy list. -/
theorem witness_RequestsAreAdmitted : uplinkValid (frameOf 8 [9#8, 1#8]) = true ∧ State.reset.rqh.queue.length < 8
    ∧ State.reset.lki.regime = .attended ∧ (after .silenceTimeoutExpiry State.reset).lki.regime = .unattended
    ∧ 8 ≤ fullQueue.rqh.queue.length ∧ fullQueue.ntu.table.length = 32 ∧ fullQueue.lki.busyCount < 8
    ∧ 8 ≤ ({ fullQueue.lki with stream := List.replicate 8 (.busy 1#8) } : Lki).busyCount := by decide +kernel

def midFrame : State := State.reset.setLki { State.reset.lki with
  rx := .inFrame, ports := State.reset.lki.ports.set .fp2 { FieldPort.initial with rx := .inFrame } }
theorem witness_FrameErrorsAreCounted : uplinkValid ⟨8#8, 1#8, [], 0#16⟩ = false ∧ midFrame.lki.rx = .inFrame
    ∧ midFrame.ntu.table.length = 32 ∧ portFrameGood ⟨2#8, 0#8, [], 0#16⟩ = false
    ∧ (midFrame.lki.ports.get .fp2).rx = .inFrame := by decide +kernel

/-- The end of a reply with nothing and with a reply waiting, with a RESTART at the head that RQH then takes, and with one that
waits. -/
def replying (stream : List StreamItem) (queue : List Request) : State :=
  let s := after .identify (asking .identify [])
  (s.setLki { s.lki with stream := stream }).setRqh { s.rqh with queue := queue }
theorem witness_TransmitterTakesInOrder : (replying [] []).lki.sending.isSome = true
    ∧ (after .transmitComplete (replying [] [])).lki.sending = none
    ∧ (after .transmitComplete (replying [.busy 1#8] [])).lki.sending.isSome = true
    ∧ (after .transmitComplete (replying [] [⟨1#8, 0x7F#8, []⟩])).rqh.inProgress = some ⟨1#8, 0x7F#8, []⟩
    ∧ (after .transmitComplete (replying [.busy 1#8, .busy 2#8] [⟨1#8, 0x7F#8, []⟩])).rqh.inProgress = none := by decide +kernel
theorem witness_SilenceMakesUnattended : bridged.lki.silenceTimer.isSome = true ∧ bridged.ntu.table.length = 32
    ∧ ({ bridged.lmc with out := 2000 } : Lmc).set.cUnatt < 2000 := by decide +kernel

/-! #### Samples -/

theorem entry_of (s : State) (id : Byte) (i : Nat) (e : RouteEntry) (h1 : matchIndex s.srt.table id = some i)
    (h2 : s.srt.table[i]? = some e) : s.srt.entryFor id i e := (Srt.entryFor_iff _ _ _ _).2 ⟨h1, h2⟩

theorem tapped_accel (s : State) (hs : s.srt = Srt.factory) (hg : s.restartGranted = false) :
    Tapped s (accelFrame 7000 0 0) 0 (.factory 0x10#8 .accel) .accel := by
  refine ⟨by decide +kernel, entry_of _ _ _ _ ?_ ?_, rfl, by decide +kernel, hg⟩ <;> rw [hs] <;> decide +kernel
theorem tapped_gauge (s : State) (hs : s.srt = Srt.factory) (hg : s.restartGranted = false) :
    Tapped s (gaugeFrame (gauge 5)) 3 (.factory 0x30#8 .gaugeA) (gaugeRole .a) := by
  refine ⟨by decide +kernel, entry_of _ _ _ _ ?_ ?_, rfl, by decide +kernel, hg⟩ <;> rw [hs] <;> decide +kernel
theorem tapped_light (s : State) (hs : s.srt = Srt.factory) (hg : s.restartGranted = false) :
    Tapped s (lightFrame 300 1) 1 (.factory 0x20#8 .lightFront) (lightTap .front) := by
  refine ⟨by decide +kernel, entry_of _ _ _ _ ?_ ?_, rfl, by decide +kernel, hg⟩ <;> rw [hs] <;> decide +kernel

/-- MatchedSampleIsCounted and TapDeliversToOneEngine: a sample with an entry, offered and not, with and without room. -/
theorem witness_MatchedSampleIsCounted : portFrameGood (accelFrame 7000 0 0) = true ∧ bridged.restartGranted = false
    ∧ bridged.srt.entryFor (sampleOf (accelFrame 7000 0 0).body).source 0 (.factory 0x10#8 .accel)
    ∧ bridged.srt.offers 0 (.factory 0x10#8 .accel) = true
    ∧ bridged.srt.offers 0 { RouteEntry.factory 0x10#8 .accel with action := .suppress } = false
    ∧ bridged.lki.sending = none ∧ bridged.queuesSound :=
  ⟨(tapped_accel bridged rfl rfl).1, rfl, (tapped_accel bridged rfl rfl).2.1, by decide +kernel, by decide +kernel, rfl, sound_queues⟩
theorem witness_UnmatchedSampleIsCounted : portFrameGood (sampleFrame 0x99 9 []) = true ∧ bridged.restartGranted = false
    ∧ bridged.srt.noEntry (sampleOf (sampleFrame 0x99 9 []).body).source ∧ bridged.srt.defaultRoute = true :=
  ⟨by decide +kernel, rfl, (Srt.noEntry_iff _ _).2 (by decide +kernel), rfl⟩
/-- The clauses by role and kind: each frame's kind, an EMPTY and a seated slot, a cell fitted or not, carrying alone with a
charge above and at the reserve. -/
theorem witness_TapDeliversToOneEngine : bridged.ppc.safe ∧ bridged.underCeiling
    ∧ bridged.srt.entryFor (sampleOf (sampleFrame 0x38 4 [1#8, 2#8, 3#8, 4#8, 0#8]).body).source 5 (.factory 0x38#8 .bridge)
    ∧ Tapped bridged (accelFrame 7000 0 0) 0 (.factory 0x10#8 .accel) .accel
    ∧ Tapped bridged (gaugeFrame (gauge 5)) 3 (.factory 0x30#8 .gaugeA) (gaugeRole .a)
    ∧ Tapped bridged (lightFrame 300 1) 1 (.factory 0x20#8 .lightFront) (lightTap .front)
    ∧ (State.reset.ppc.pack .a).state = .empty ∧ (bridged.ppc.pack .a).state ≠ .empty
    ∧ bridged.ppc.bridge.fitted = true ∧ State.reset.ppc.bridge.fitted = false
    ∧ (sampleOf (sampleFrame 0x38 4 [1#8, 2#8, 3#8, 4#8, 0#8]).body).kindCode = 4
    ∧ (sampleOf (sampleFrame 0x10 9 []).body).kindCode ≠ TapRole.accel.kind
    ∧ bridged.ppc.bridge.alone = true ∧ bridged.ppc.bridge.exhausted = false
    ∧ 0 < swapWindow 301 300 (bridged.ppc.loadAt (min bridged.lmc.out bridged.ppc.budget.cPower))
    ∧ swapWindow 300 300 (bridged.ppc.loadAt 0) = 0
    ∧ bridged.ntu.isLive .bridgeLow = false ∧ bridged.ntu.isLive .bridgeFault = false ∧ bridged.ntu.table.length = 32 :=
  ⟨safe_bridged, by unfold State.underCeiling; decide +kernel, entry_of _ _ _ _ (by decide +kernel) (by decide +kernel),
    tapped_accel _ rfl rfl, tapped_gauge _ rfl rfl, tapped_light _ rfl rfl, by decide +kernel⟩
/-- The same sample in a freeze: the FAIL mode left, the FORCED mode kept, and valid unchanged. -/
def frozen (mode : Mode) (valid : Bool) : State :=
  bridged.setLmc { bridged.lmc with freeze := true, f := some 2048, valid := valid, mode := mode }
theorem witness_TapDeliversToOneEngine_freeze :
    Tapped (frozen .fail false) (lightFrame 300 1) 1 (.factory 0x20#8 .lightFront) (lightTap .front)
    ∧ (frozen .fail false).lmc.mode = .fail ∧ (frozen .fail false).lmc.f.isSome = true
    ∧ (frozen .forced false).lmc.mode = .forced ∧ (frozen .curve true).lmc.valid = (frozen .curve true).lmc.f.isSome :=
  ⟨tapped_light _ rfl rfl, by decide +kernel⟩
/-- R77, R78, R81: a LIGHT sample in a freeze, F staying, and T0 the curve at F. -/
theorem test_freeze_leaves_fail :
    (let m := (after (.sampleFrameReceived .fp0 (lightFrame 300 1)) (frozen .fail false)).lmc
     (m.mode, m.valid, m.f, m.t0)) = (.curve, true, some 2048, 900) := by decide +kernel
theorem witness_LightSampleIsMeasured : Tapped bridged (lightFrame 300 1) 1 (.factory 0x20#8 .lightFront) (lightTap .front)
    ∧ bridged.lmc.freeze = false := ⟨tapped_light _ rfl rfl, by decide +kernel⟩
/-- A good sample with Q above and at the next count, and the two states. -/
theorem witness_GaugeSampleQualifies :
    Tapped bridged (gaugeFrame (gauge 5)) 3 (.factory 0x30#8 .gaugeA) (gaugeRole .a) ∧ bridged.ntu.table.length = 32
    ∧ (bridged.ppc.pack .a).state = .seated ∧ ((withA .qualifying).ppc.pack .a).state = .qualifying
    ∧ bridged.ppc.profile.good (gauge 5) = true ∧ bridged.ppc.profile.good { gauge 5 with voltage := 0 } = false
    ∧ (bridged.ppc.pack .a).qual + 1 < bridged.ppc.profile.qualNeeded
    ∧ bridged.ppc.profile.qualNeeded ≤ (bridged.ppc.profile.qualNeeded - 1) + 1 :=
  ⟨tapped_gauge _ rfl rfl, by decide +kernel⟩
theorem safe_carrying : carrying.ppc.safe :=
  ⟨by unfold Pack.safe; decide +kernel, by unfold Pack.safe; decide +kernel, by decide +kernel⟩
/-- A fault, a rotation, an energy at ROTATE_MWH and a gap at ROTATE_GAP, and a confirmed release. -/
theorem witness_GaugeSampleFaultsOrConfirms : carrying.ppc.safe
    ∧ Tapped carrying (gaugeFrame (gauge 5)) 3 (.factory 0x30#8 .gaugeA) (gaugeRole .a) ∧ carrying.ntu.table.length = 32
    ∧ (carrying.ppc.pack .a).state = .online ∧ ((withA .releasing).ppc.pack .a).state = .releasing
    ∧ ((withA .releasing).ppc.pack .a).lockPending = false ∧ carrying.ppc.profile.tCut ≤ (1000 : Int)
    ∧ (carrying.ppc.pack .b).state = .standby ∧ (carrying.ppc.pack .b).sample = some (gauge 30000)
    ∧ 5 < carrying.ppc.profile.rotateMwh ∧ 5 + carrying.ppc.profile.rotateGap < 30000 ∧ ¬3000 < carrying.ppc.profile.rotateMwh
    ∧ ¬2999 + carrying.ppc.profile.rotateGap < 4999 :=
  ⟨safe_carrying, tapped_gauge _ rfl rfl, by decide +kernel⟩
/-- AloneFollows, as the loss of the only carrying pack meets it: carrying alone begins exhausted, without a sample, and with a
charge above and at the reserve; and it ends at the return of the DC input. -/
theorem witness_AloneFollows :
    ([lone none true, lone none false, lone (some 301) false, lone (some 300) false].all fun s =>
      !s.ppc.bridge.alone && (after (.presenceLoss .a) s).ppc.bridge.alone) = true
    ∧ bridged.ppc.bridge.alone = true ∧ (after (.dcinOkChange true) bridged).ppc.bridge.alone = false := by decide +kernel
/-- IDLE and HOLD, an impact, a full and a short low run, and a middling sample. -/
theorem witness_AccelSampleOpensARecord : Tapped bridged (accelFrame 7000 0 0) 0 (.factory 0x10#8 .accel) .accel
    ∧ bridged.ppc.settled ∧ bridged.underCeiling ∧ bridged.mtm.sound ∧ bridged.mtm.phase = .idle ∧ holding.mtm.sound ∧ holding.mtm.phase = .hold
    ∧ bridged.ntu.table.length = 32 ∧ bridged.mtm.set.impactThresh ≤ 6000 ∧ 5999 < bridged.mtm.set.impactThresh
    ∧ 349 < bridged.mtm.set.ffThresh ∧ bridged.mtm.set.ffThresh ≤ 350 ∧ bridged.mtm.set.ffCount ≤ min (7 + 1) 255
    ∧ min (6 + 1) 255 < bridged.mtm.set.ffCount ∧ bridged.mtm.lowRun ≤ 255 :=
  ⟨tapped_accel _ rfl rfl, witness_BudgetStaysSettled.2.1, witness_OutputStaysUnderCeiling.1,
    sound_of _ (by decide +kernel), by decide +kernel, sound_of _ (by decide +kernel), by decide +kernel⟩
theorem witness_AccelSampleInARecord : Tapped falling (accelFrame 7000 0 0) 0 (.factory 0x10#8 .accel) .accel
    ∧ falling.mtm.sound ∧ falling.mtm.phase.recording = true
    ∧ falling.mtm.ring.getLast? = some (DropRecord.opened 0 .fallAborted 8 { source := .bridge, swapInProgress := false })
    ∧ falling.ntu.table.length = 32 ∧ falling.mtm.set.ffMax ≤ 799 + 1 ∧ 798 + 1 < falling.mtm.set.ffMax
    ∧ falling.mtm.set.ffCount ≤ heldAt 7 255 ∧ heldAt 6 255 < falling.mtm.set.ffCount
    ∧ 5999 < falling.mtm.set.impactThresh ∧ falling.mtm.set.ffThresh ≤ 5999 ∧ 349 < falling.mtm.set.ffThresh :=
  ⟨tapped_accel _ rfl rfl, sound_of _ (by decide +kernel), by decide +kernel⟩
/-- SettleTested: a quiet sample that reaches QUIET_COUNT and one that does not, SETTLE_MAX reached and not, a loud sample. -/
theorem witness_SettleTested : (1000 ≤ 1000 + falling.mtm.set.quietBand ∧ 1000 ≤ 1000 + falling.mtm.set.quietBand)
    ∧ falling.mtm.set.quietCount ≤ heldAt 199 65535 ∧ heldAt 198 65535 < falling.mtm.set.quietCount
    ∧ falling.mtm.set.settleMax ≤ heldAt 3999 65535 ∧ heldAt 3998 65535 < falling.mtm.set.settleMax
    ∧ ¬1151 ≤ 1000 + falling.mtm.set.quietBand := by decide +kernel

/-! #### Lines and timers -/

theorem witness_RawInputsDebounce :
    ((State.editPack bridged .a fun k => { k with lever := true }).ppc.pack .a).lever = true := by decide +kernel
theorem witness_SeatingStartsAPack : (State.reset.ppc.pack .a).presence = false ∧ State.reset.ntu.table.length = 32 := by
  decide +kernel
/-- A loss and a removal, in IDLE and in a drop, of a carrying pack with a STANDBY successor. -/
theorem witness_PresenceLossEmptiesASlot : (carrying.ppc.pack .a).presence = true ∧ carrying.ntu.table.length = 32
    ∧ (carrying.ppc.pack .a).switch = true ∧ (carrying.ppc.pack .b).state = .standby ∧ carrying.mtm.phase = .idle
    ∧ ((withA .fault).ppc.pack .a).presence = true ∧ (falling.ppc.pack .a).presence = true ∧ falling.mtm.phase ≠ .idle
    ∧ carrying.ppc.safe := by
  refine ⟨?_, ?_, ?_, ?_, ?_, ?_, ?_, ?_, safe_carrying⟩ <;> decide +kernel
theorem witness_LeverPressReleases : (carrying.ppc.pack .a).lever = false ∧ carrying.ntu.table.length = 32
    ∧ (carrying.ppc.pack .a).state = .online ∧ carrying.ppc.dcinOk = false ∧ (carrying.ppc.pack .b).state = .standby
    ∧ (lone (some 700) false).ppc.bridgeReady ∧ (lone (some 699) false).ppc.bridgeShort ∧ (lone none false).ppc.bridgeShort
    ∧ ({ (lone none false).ppc with bridge := { (lone none false).ppc.bridge with fitted := false } } : Ppc).bridgeOut
    ∧ ((lone none false).ppc.pack .a).state = .online ∧ ((lone none false).ppc.pack .b).state ≠ .standby
    ∧ (lone none false).mtm.phase = .idle ∧ (after .silenceTimeoutExpiry (lone none false)).ppc.regime = .unattended := by
  refine ⟨?_, ?_, ?_, ?_, ?_, ⟨by decide +kernel, _, rfl, by decide +kernel⟩, ⟨by decide +kernel, .inr ⟨_, rfl, by decide +kernel⟩⟩,
    ⟨by decide +kernel, .inl rfl⟩, .inl rfl, ?_⟩ <;> decide +kernel
theorem witness_DcChangeSwitches : carrying.ppc.dcinOk = !true ∧ carrying.ppc.safe ∧ carrying.ntu.table.length = 32
    ∧ (State.powerOn ⟨true, true, false, false, true, true⟩ []).ppc.dcinOk = !false := by
  refine ⟨?_, safe_carrying, ?_, ?_⟩ <;> decide +kernel
theorem witness_BridgeIsFittedOrRemoved : bridged.ppc.bridge.fitted = !false ∧ bridged.ppc.safe
    ∧ State.reset.ppc.bridge.fitted = !true := by
  refine ⟨?_, witness_SwitchesStaySafe.1, ?_⟩ <;> decide +kernel

/-- Each clause of PackTimersExpire: the state and its timer running, in IDLE and in a drop. -/
theorem witness_PackTimersExpire : bridged.ntu.table.length = 32
    ∧ (([PackState.qualifying, .releasing, .unlocked].map fun st =>
        ((State.editPack (withA st) .a fun k => { k with
          qualTimer := some 1, confirmTimer := some 1, holdTimer := some 1 }).ppc.pack .a)).all fun k =>
        k.qualTimer.isSome && k.confirmTimer.isSome && k.holdTimer.isSome) = true
    ∧ (bridged.ppc.pack .a).staleTimer.isSome = true ∧ bridged.mtm.phase = .idle ∧ falling.mtm.phase ≠ .idle
    ∧ bridged.ntu.isLive (.gaugeStale .a) = false := by decide +kernel

def windowed : State := bridged.setPpc { bridged.ppc with bridge := { bridged.ppc.bridge with window := .running 0 } }
theorem witness_BridgeTimersExpire :
    ({ carrying.ppc with settleTimer := some 0 } : Ppc).settleTimer.isSome = true
    ∧ windowed.ppc.bridge.window = .running 0 ∧ windowed.ppc.safe ∧ windowed.underCeiling
    ∧ windowed.ntu.table.length = 32 := by
  refine ⟨rfl, rfl, ?_, ?_, ?_⟩
  · exact ⟨by unfold Pack.safe; decide +kernel, by unfold Pack.safe; decide +kernel, by decide +kernel⟩
  · unfold State.underCeiling; decide +kernel
  · decide +kernel

def lit : State := after (.sampleFrameReceived .fp0 (lightFrame 300 1)) bridged
/-- The other role LOST with CURVE left, and the other role LIVE. -/
theorem witness_LightStaleLosesARole : (lit.lmc.role .front).timer.isSome = true ∧ LightRole.top ≠ .front
    ∧ lit.ntu.table.length = 32 ∧ (lit.lmc.role .top).live = false ∧ lit.lmc.valid = true ∧ lit.lmc.mode = .curve
    ∧ lit.lmc.valid = lit.lmc.f.isSome ∧ lit.ntu.isLive (.lightLost .front) = false := by decide +kernel
theorem witness_LightStaleLosesARole_forced :
    ((frozen .forced true).setLmc { (frozen .forced true).lmc with front := lit.lmc.front }).lmc.mode = .forced
    ∧ (lit.lmc.role .front).live = true := by decide +kernel
theorem witness_StepSlewsTheOutput : bridged.lmc.out < bridged.lmc.target ∧ State.reset.lmc.out = State.reset.lmc.target := by
  decide +kernel
theorem witness_AccelStaleBlinds : falling.mtm.staleTimer.isSome = true ∧ falling.mtm.sound
    ∧ falling.ntu.table.length = 32 ∧ falling.mtm.phase.recording = true ∧ bridged.mtm.phase.recording = false := by
  refine ⟨?_, sound_of _ ?_, ?_, ?_, ?_⟩ <;> decide +kernel
def pendingLock : State := State.editPack holding .a fun k => { k with state := .releasing, lockPending := true }
theorem witness_ProtectHoldReturnsToIdle : pendingLock.mtm.phase = .hold ∧ pendingLock.mtm.holdTimer.isSome = true
    ∧ pendingLock.ntu.table.length = 32 ∧ (pendingLock.ppc.pack .a).lockPending = true
    ∧ (pendingLock.ppc.pack .a).state = .releasing ∧ pendingLock.ppc.settleTimer = none
    ∧ pendingLock.ppc.bridge.switch = true := by decide +kernel
theorem witness_RuledOutCommandsChangeNothing : State.reset.rulesOut .protectHoldExpiry = true ∧ State.reset.rulesOut .identify = true
    ∧ State.reset.rulesOut (.brPresChange false) = true := by decide +kernel

/-! #### Requests -/

theorem serving_asking (c : RequestCode) (args : List Byte) : Serving (asking c args) c 7#8 args := rfl

/-- FailedChecksAreAnswered: a wrong length, a reserved bit, and a code that names no request. -/
theorem witness_FailedChecksAreAnswered : RequestCode.identify.lengthOk [1#8] = false ∧ RequestCode.noticeEnable.lengthOk [2#8] = true
    ∧ RequestCode.routeWrite.reservedSet [0#8, 8#8, 0#8, 0#8, 0#8, 0#8, 0#8, 0#8] = true
    ∧ RequestCode.routeWrite.lengthOk [0#8, 8#8, 0#8, 0#8, 0#8, 0#8, 0#8, 0#8] = true
    ∧ RequestCode.dropRead.reservedSet [2#8, 0#8, 0#8] = true ∧ RequestCode.dropRead.reservedSet [1#8, 0#8, 0#8] = false
    ∧ RequestCode.all.all (fun d => d.byte != 0xEE#8) = true := by decide
theorem witness_LinkRequestsAnswer : Serving (asking .linkSet [0#8]) .linkSet 7#8 [0#8] ∧ (asking .linkSet [0#8]).lki.regime = .attended :=
  ⟨rfl, rfl⟩

/-- RouteWriteStoresAnEntry: index 23 and 24, a factor outside its action, and an override on the entry. -/
theorem witness_RouteWriteStoresAnEntry :
    Serving (asking .routeWrite [23#8, 7#8, 0#8, 0#8, 1#8, 64#8, 6#8, 3#8]) .routeWrite 7#8 [23#8, 7#8, 0#8, 0#8, 1#8, 64#8, 6#8, 3#8]
    ∧ (7#8).toNat < 8 ∧ (asking .routeWrite []).ntu.table.length = 32 ∧ (23#8).toNat ≤ 23 ∧ 23 < (24#8).toNat
    ∧ (1#8).toNat ≤ 2 ∧ (6#8).toNat ≤ 6 ∧ (3#8).toNat ≤ 3 ∧ ((1#8).toNat = 1 → 2 ≤ (64#8).toNat ∧ (64#8).toNat ≤ 64)
    ∧ ((1#8).toNat = 1 ∧ ((65#8).toNat < 2 ∨ 64 < (65#8).toNat)) := ⟨rfl, by decide +kernel⟩
theorem witness_RouteReadReports : Serving (asking .routeRead [23#8]) .routeRead 7#8 [23#8]
    ∧ (asking .routeRead [23#8]).srt.table.length = 24 ∧ (asking .routeRead [23#8]).srt.table[23]? = some .unused :=
  ⟨rfl, by decide +kernel⟩
/-- No override, one on an unpinned entry, and one on a pinned entry. -/
theorem witness_RouteFlushInvalidates : Serving (asking .routeFlush []) .routeFlush 7#8 [] ∧ (asking .routeFlush []).srt.sound
    ∧ (asking .routeFlush []).ntu.table.length = 32 ∧ (asking .routeFlush []).srt.overrideEntry = none
    ∧ (RouteEntry.factory 0x10#8 .accel).pinned = false := ⟨rfl, sound_bridged, by decide +kernel⟩
theorem witness_SnapshotCopiesAndClears : Serving (asking .countSnapshot [1#8]) .countSnapshot 7#8 [1#8] ∧ (1#8).toNat ≤ 1
    ∧ (asking .countSnapshot [1#8]).srt.table.length = 24 := ⟨rfl, by decide +kernel⟩
/-- CountReadReadsTheHoldingSet at (53, 2), (54, 0), (0, 0), (0, 17), (53, 1) and (38, 16): no pair meets two clauses. -/
theorem witness_CountReadReadsTheHoldingSet : Serving (asking .countRead [53#8, 1#8]) .countRead 7#8 [53#8, 1#8]
    ∧ (([(53, 2), (54, 0), (0, 0), (0, 17), (53, 1), (38, 16)].map fun x : Nat × Nat =>
        (decide (53 < x.1 ∨ 54 < x.1 + x.2), decide (x.1 ≤ 53 ∧ x.1 + x.2 ≤ 54 ∧ (x.2 = 0 ∨ 16 < x.2)),
          decide (x.1 ≤ 53 ∧ x.1 + x.2 ≤ 54 ∧ 1 ≤ x.2 ∧ x.2 ≤ 16)))
      = [(true, false, false), (true, false, false), (false, true, false), (false, true, false), (false, false, true),
          (false, false, true)]) := ⟨rfl, by decide⟩
/-- PassReachesItsPort: no payload, no entry, and an entry with and without its protective condition. -/
theorem witness_PassReachesItsPort : Serving (asking .pass [0x10#8, 1#8]) .pass 7#8 (0x10#8 :: [1#8])
    ∧ (asking .pass [0x99#8, 1#8]).srt.noEntry 0x99#8
    ∧ (asking .pass [0x10#8, 1#8]).srt.entryFor 0x10#8 0 (.factory 0x10#8 .accel)
    ∧ (asking .pass [0x10#8, 1#8]).mtm.phase = .idle ∧ falling.mtm.phase ≠ .idle
    ∧ ((asking .pass []).lki.ports.get .fp0).buffer = none :=
  ⟨rfl, (Srt.noEntry_iff _ _).2 (by decide +kernel), entry_of _ _ _ _ (by decide +kernel) (by decide +kernel),
    by decide +kernel⟩

theorem witness_PowerRequestsSettle : carrying.ppc.safe
    ∧ Serving (asking .packProfileWrite PackProfile.factory.bytes) .packProfileWrite 7#8 PackProfile.factory.bytes
    ∧ PackProfile.factory.bytes.length = 51
    ∧ (let a := PackProfile.factory.bytes
       u16 a 0 ≤ 20000 ∧ u16 a 2 ≤ 20000 ∧ 1 ≤ u8 a 4 ∧ u8 a 4 ≤ 15 ∧ 100 ≤ u16 a 5 ∧ u16 a 5 ≤ 60000
         ∧ (∀ o ∈ [7, 9, 13, 15, 17], -400 ≤ s16 a o ∧ s16 a o ≤ 1000) ∧ u16 a 11 ≤ 20000
         ∧ (∀ o ∈ [19, 21, 23, 25], u16 a o ≤ 20000) ∧ u32 a 27 ≤ 100000 ∧ u32 a 31 ≤ 100000
         ∧ 100 ≤ u16 a 35 ∧ u16 a 35 ≤ 10000 ∧ u32 a 37 ≤ 200000 ∧ u32 a 41 ≤ 200000 ∧ u16 a 45 ≤ 20000
         ∧ 10 ≤ u16 a 47 ∧ u16 a 47 ≤ 5000 ∧ 1000 ≤ u16 a 49 ∧ u16 a 49 ≤ 60000
         ∧ u16 a 0 ≤ u16 a 2 ∧ s16 a 7 < s16 a 9 ∧ s16 a 13 ≤ s16 a 15 ∧ s16 a 15 ≤ s16 a 17)
    ∧ ¬1 ≤ u8 (List.replicate 51 0#8) 4 ∧ (carrying.ppc.pack .a).sample = some (gauge 40000)
    ∧ (bridged.ppc.pack .a).sample = none
    ∧ PowerSettings.factory.bytes.length = 8 ∧ u16 PowerSettings.factory.bytes 6 ≤ 20000
    ∧ 20000 < u16 (le16 0 ++ le32 0 ++ le16 20001) 6 ∧ u16 (le16 0 ++ le32 0 ++ le16 20000) 6 ≤ 20000
    ∧ BridgeSettings.factory.bytes.length = 10 ∧ 100000 < u32 (le16 0 ++ le16 0 ++ le16 0 ++ le32 100001) 6
    ∧ u32 (le16 0 ++ le16 0 ++ le16 0 ++ le32 100000) 6 ≤ 100000 :=
  ⟨safe_carrying, rfl, by decide +kernel⟩
/-- CeilingDelivered: a C_power below O and one above it, by POWER_SET in a safe state whose C_power is delivered. -/
theorem witness_CeilingDelivered :
    (let s := (asking .powerSet (le16 60000 ++ le32 0 ++ le16 0)).setPpc carrying.ppc
     let u := s.setLmc { s.lmc with out := 1 }
     let t := after .powerSet u
     (decide (t.ppc.budget.cPower ≠ u.ppc.budget.delivered), decide (t.ppc.budget.cPower < u.lmc.out), t.lmc.out,
       t.ntu.isLatched .ceilingCut)) = (true, true, 0, true) := by decide +kernel
theorem witness_StatusRequestsReport : Serving (asking .packStatus [1#8]) .packStatus 7#8 [1#8] ∧ 1 < (2#8).toNat
    ∧ (1#8 : Byte) = (if Slot.b = .a then 0#8 else 1#8) := ⟨rfl, by decide⟩
theorem witness_PackReleaseAnswers : Serving (asking .packRelease [0#8]) .packRelease 7#8 [0#8]
    ∧ (asking .packRelease [0#8]).ntu.table.length = 32 ∧ (0#8 : Byte) = (if Slot.a = .a then 0#8 else 1#8)
    ∧ 1 < (2#8).toNat := ⟨rfl, by decide +kernel⟩

def lightArgs : List Byte := Gains.factory.bytes ++ Gains.factory.bytes ++ LightSettings.factory.bytes
/-- LightSetStoresSettings: right arguments, a gain of 0, and P_BL_MAX as it stands and changed. -/
theorem witness_LightSetStoresSettings : bridged.ppc.safe ∧ Serving (asking .lightSet lightArgs) .lightSet 7#8 lightArgs ∧ lightArgs.length = 32
    ∧ (∀ i < 8, u16 lightArgs (2 * i) ≠ 0) ∧ 100 ≤ u16 lightArgs 20 ∧ u16 lightArgs 20 ≤ 10000 ∧ 4 ≤ u16 lightArgs 22
    ∧ u16 lightArgs 22 ≤ 1000 ∧ 1 ≤ u16 lightArgs 24 ∧ u16 lightArgs 24 ≤ 4095 ∧ 1 ≤ u16 lightArgs 26
    ∧ u16 lightArgs 26 ≤ 4095 ∧ u16 (List.replicate 32 0#8) 0 = 0
    ∧ max 1000 (min (u16 lightArgs 28) 20000) = (asking .lightSet lightArgs).ppc.pBlMax ∧ 1000 ≠ bridged.ppc.pBlMax :=
  ⟨safe_bridged, rfl, by decide +kernel⟩
/-- CurveWritesStorePoints: N and the index at their bounds. -/
theorem witness_CurveWritesStorePoints :
    Serving (asking .curveWriteHeader [16#8, 0#8, 0#8, 0#8, 0#8]) .curveWriteHeader 7#8 [16#8, 0#8, 0#8, 0#8, 0#8]
    ∧ Serving (asking .curveWritePoint [15#8, 0#8, 0#8, 0#8, 0#8]) .curveWritePoint 7#8 [15#8, 0#8, 0#8, 0#8, 0#8]
    ∧ 16 < u8 [17#8] 0 ∧ u8 [1#8] 0 < 2 ∧ 2 ≤ u8 [16#8] 0 ∧ u8 [16#8] 0 ≤ 16
    ∧ 15 < u8 [16#8] 0 ∧ u8 [15#8] 0 ≤ 15 ∧ u8 [3#8] 0 < Curve.factory.n ∧ Curve.factory.n ≤ u8 [4#8] 0
    ∧ lit.lmc.curve.latch = some 1 ∧ bridged.lmc.curve.latch = none ∧ lit.lmc.mode = .curve :=
  ⟨rfl, rfl, by decide +kernel⟩
/-- R89, R90, R92, R139: a write of the latched segment's lower point that breaks the rise: the full search finds the curve
inconsistent, T0 is held, and CURVE_FAULT is live and latched; the point written right again makes it consistent. -/
def broken (x : Nat) (s : State) : State :=
  after .curveWritePoint (s.setRqh { s.rqh with
    inProgress := some ⟨7#8, RequestCode.curveWritePoint.byte, b8 1 ++ le16 x ++ le16 600⟩ })
theorem test_broken_curve_holds_T0 :
    (let s := broken 4600 lit
     (s.lmc.curve.consistent, s.lmc.curve.latch, s.lmc.t0 == lit.lmc.t0, s.ntu.isLive .curveFault, s.ntu.isLatched .curveFault))
      = (false, none, true, true, true) := by decide +kernel
theorem test_mended_curve_is_consistent :
    (let s := broken 1900 (broken 4600 lit)
     (s.lmc.curve.consistent, s.ntu.isLive .curveFault, s.ntu.isLatched .curveFault)) = (true, false, true) := by decide +kernel
theorem witness_BacklightRequestsAim : Serving (asking .blBias [0#8, 4#8]) .blBias 7#8 [0#8, 4#8]
    ∧ Serving (asking .blForce [0#8, 16#8]) .blForce 7#8 [0#8, 16#8] ∧ Serving (asking .blRelease []) .blRelease 7#8 []
    ∧ (asking .blRelease []).lmc.mode ≠ .forced ∧ (after .blForce (asking .blForce [0#8, 16#8])).lmc.mode = .forced :=
  ⟨rfl, rfl, rfl, by decide +kernel⟩
theorem witness_MotionRequestsAnswer : Serving (asking .motionSet MotionSettings.factory.bytes) .motionSet 7#8 MotionSettings.factory.bytes
    ∧ MotionSettings.factory.bytes.length = 17 
    ∧ (let a := MotionSettings.factory.bytes
       50 ≤ u16 a 0 ∧ u16 a 0 ≤ 2000 ∧ 1 ≤ u8 a 2 ∧ 2 ≤ u16 a 3 ∧ 1000 ≤ u16 a 5 ∧ u16 a 5 ≤ 28000 ∧ u16 a 7 ≤ 1000
         ∧ 1 ≤ u16 a 9 ∧ 1 ≤ u16 a 11 ∧ 50 ≤ u16 a 13 ∧ u16 a 13 ≤ 60000 ∧ 10 ≤ u16 a 15 ∧ u16 a 15 ≤ 1000
         ∧ u16 a 0 < u16 a 5 ∧ u8 a 2 < u16 a 3 ∧ u16 a 9 ≤ u16 a 11)
    ∧ ¬50 ≤ u16 (List.replicate 17 0#8) 0 := ⟨rfl, by decide +kernel⟩

def closedRecord (seq : Nat) : DropRecord :=
  { DropRecord.opened seq .shock 0 { source := .dc, swapInProgress := false } with isOpen := false }
/-- DropReadReturnsARecord and DropReleaseFreesTheOlder: an older, the named and a newer record; the numbers wrap. -/
theorem witness_DropRequests : Serving (asking .dropRead [0#8, 0xFF#8, 0xFF#8]) .dropRead 7#8 [0#8, 0xFF#8, 0xFF#8]
    ∧ Serving (asking .dropRelease [0xFF#8, 0xFF#8]) .dropRelease 7#8 [0xFF#8, 0xFF#8] ∧ (0#8).toNat ≤ 1
    ∧ [closedRecord 65534, closedRecord 65535, closedRecord 0] = [closedRecord 65534] ++ closedRecord 65535 :: [closedRecord 0]
    ∧ (closedRecord 65535).seq = (0xFF#8).toNat + 256 * (0xFF#8).toNat ∧ (closedRecord 65535).isOpen = false
    ∧ (∀ q ∈ [closedRecord 65534], q.seq ≠ (0xFF#8).toNat + 256 * (0xFF#8).toNat) := ⟨rfl, rfl, by decide⟩

/-- NoticeConfigurationJudges: codes 31 and 32, a hard code with its level and another, soft levels 7 and 8. -/
theorem witness_NoticeConfigurationJudges : Serving (asking .noticeEnable [1#8]) .noticeEnable 7#8 [1#8]
    ∧ Serving (asking .eventConfig [31#8, 1#8, 7#8]) .eventConfig 7#8 [31#8, 1#8, 7#8]
    ∧ (1#8).toNat ≤ 1 ∧ 31 < (32#8).toNat ∧ (31#8).toNat ≤ 31 ∧ hardLevel 31 = none ∧ (7#8).toNat ≤ 7 ∧ 7 < (8#8).toNat
    ∧ hardLevel Event.bridgeExhausted.code = some 10 ∧ (9#8).toNat ≠ 10
    ∧ (asking .eventConfig []).ntu.table[31]? = some { EventEntry.initial 31 false with latched := true }
    ∧ 1 < (2#8).toNat ∧ (asking .noticeEnable [1#8]).ntu.globalEnable = false
    ∧ (5#8).toNat ≤ 5 ∧ (after .holdNotices (asking .holdNotices [5#8, 0#8])).ntu.holdOff.isSome = true :=
  ⟨rfl, rfl, by decide +kernel⟩
theorem witness_EventReadClears :
    Serving (asking .eventReadClear [0#8, 0#8, 0#8, 0x80#8]) .eventReadClear 7#8 [0#8, 0#8, 0#8, 0x80#8]
    ∧ (u32 [0#8, 0#8, 0#8, 0x80#8] 0).testBit 31 = true := ⟨rfl, by decide⟩
/-- HoldOffDelaysNotices: a hold-off that is stopped and one that runs, durations below, at and above what remains. -/
theorem witness_HoldOffDelaysNotices : Serving (asking .holdNotices [5#8, 0#8]) .holdNotices 7#8 [5#8, 0#8]
    ∧ (asking .holdNotices [5#8, 0#8]).ntu.holdOff = none
    ∧ (after .holdNotices (asking .holdNotices [5#8, 0#8])).ntu.holdOff = some 5
    ∧ (after .holdNotices (asking .holdNotices [5#8, 0#8])).ntu.holdOff.isSome = true := ⟨rfl, by decide +kernel⟩
/-- POWER_ON waiting for its NOTICE under a hold-off that is due, the transmitter busy or idle. -/
def heldOff (busy : Bool) : State :=
  let s := if busy then replying [] [] else State.reset
  s.setNtu { s.ntu with globalEnable := true, holdOff := some 0
                        table := s.ntu.table.set 31 { EventEntry.initial 31 false with latched := true, enable := true, level := 1 } }
/-- Noticed: an entry is notified at a busy and at an idle transmitter, and none is. -/
theorem witness_Noticed : NewlyNotified (heldOff true) (after .holdOffExpiry (heldOff true)) 31
    ∧ (heldOff true).lki.sending.isSome = true ∧ NewlyNotified (heldOff false) (after .holdOffExpiry (heldOff false)) 31
    ∧ (heldOff false).lki.sending = none
    ∧ ((List.range 32).all fun k => decide ((State.reset.ntu.table[k]?).map (·.notified) = some false)) = true := by
  refine ⟨⟨?_, ?_⟩, ?_, ⟨?_, ?_⟩, ?_, ?_⟩ <;> decide +kernel
/-- RestartRestoresAndKeeps: taken in IDLE with the regime ATTENDED and a good SAMPLE frame that follows, and taken in a drop. -/
theorem witness_RestartRestoresAndKeeps : (restarting .idle .idle).ppc.safe ∧ (restarting .idle .idle).underCeiling
    ∧ Serving (restarting .idle .idle) .restart 7#8 [] ∧ (restarting .idle .idle).rqh.takenIn = .idle
    ∧ (restarting .idle .idle).lki.regime = .attended ∧ portFrameGood (accelFrame 7000 0 0) = true
    ∧ Serving (restarting .hold .idle) .restart 7#8 [] ∧ (restarting .hold .idle).rqh.takenIn ≠ .idle :=
  ⟨⟨by unfold Pack.safe; decide +kernel, by unfold Pack.safe; decide +kernel, by decide +kernel⟩,
    by unfold State.underCeiling; decide +kernel, rfl, rfl, rfl, by decide +kernel, rfl, by decide⟩
/-- R163: a first RESTART is taken with its frame, and the part carries it out next. -/
theorem test_first_restart_is_taken_at_once :
    (let s := after (.requestFrameReceived (frameOf 8 [7#8, 0x7F#8])) State.reset
     (s.rqh.inProgress, s.rqh.queue, s.restartGranted, s.ownEvent))
      = (some ⟨7#8, 0x7F#8, []⟩, [], true, some .restart) := by decide +kernel
/-- What the reply in transmission says: its tag, whether its status is OK, and its payload; and what RQH holds. -/
def restartReply (t : State) : Option (Byte × Bool × List Byte) × Option Request × List Request :=
  (match t.lki.sending with
   | some (.reply r) => some (r.tag, r.status == .ok, r.payload)
   | _ => none, t.rqh.inProgress, t.rqh.queue)
/-- R124: taken in a drop it is refused, although the phase is back at IDLE, and the request behind it is taken next. -/
theorem test_restart_is_refused_in_a_drop :
    restartReply (after .restart (restarting .falling .idle)) = (some (7#8, false, [1#8]), some ⟨8#8, 1#8, []⟩, []) := by
  decide +kernel
/-- R160: taken in IDLE the request behind it is discarded and counted. -/
theorem test_restart_discards_the_queue :
    restartReply (after .restart (restarting .idle .idle)) = (some (7#8, true, [1#8]), none, []) := by decide +kernel
/-- R124: a RESTART taken before the sample that opens a record is carried out, and the drop begins on the state it left. -/
theorem test_restart_precedes_a_drop :
    (let t := after (.sampleFrameReceived .fp0 (accelFrame 7000 0 0)) (restarting .idle .idle)
     (restartReply t, t.mtm.phase, t.ntu.isLatched .restarted)) = ((some (7#8, true, [1#8]), none, []), .impact, true) := by
  decide +kernel
theorem witness_SettingsRoundTrip : PackProfile.factory.bytes.length = 51 ∧ PowerSettings.factory.bytes.length = 8
    ∧ BridgeSettings.factory.bytes.length = 10 ∧ MotionSettings.factory.bytes.length = 17 ∧ lightArgs.length = 32 := by
  decide +kernel

end Sys2Proof.Machine.Tests
end

section
/-! What any chain of raisings, judgements and placings inside one command leaves of the notices (R138 to R141, R166): the
links of the chain are composed by `Told.trans`, and an event raised at one of them has occurred between its ends. -/

namespace Sys2Proof.Machine

/-- The content stands in the notice slot of `t`, or the transmitter, idle in `s`, has taken it. -/
def Sent (s t : State) (c : Notice) : Prop :=
  t.lki.notice = some c ∨ s.lki.sending = none ∧ t.lki.sending = some (.notice c)

/-- Eligibility is judged throughout: no entry of the table waits to be notified (R140). -/
def Ntu.allJudged (n : Ntu) : Prop := ∀ (k : Nat) (e : EventEntry), n.table[k]? = some e → n.eligible k e = false

/-- The event code is latched. -/
def Ntu.latchedAt (n : Ntu) (k : Nat) : Prop := (n.table[k]?).map (·.latched) = some true

/-- A content carries another on: its level is no lower, and it shows what that one showed of the codes latched in `n`. -/
def Notice.covers (c w : Notice) (n : Ntu) : Prop :=
  w.level ≤ c.level ∧ ∀ k : Nat, w.latched[k]? = some true → n.latchedAt k → c.latched[k]? = some true

/-- What every link of a command's chain does to transmitter, slot and event table: a frame in transmission stays, the table
changes by events alone, a waiting NOTICE is sent or carried on, what is newly notified is announced, and a table that was
judged throughout stays so. -/
structure Told (s t : State) : Prop where
  sending : s.lki.sending.isSome = true → t.lki.sending = s.lki.sending
  events : ∃ es, s.ntu.onlyEvents es t.ntu
  carried : ∀ w, s.lki.notice = some w → ∃ c, Sent s t c ∧ c.covers w s.ntu
  announced : Announced s t
  judged : s.ntu.allJudged → t.ntu.allJudged

theorem Ntu.onlyEvents_latchedAt {es : List Event} {n n' : Ntu} (h : n.onlyEvents es n') {k : Nat} (hk : n.latchedAt k) :
    n'.latchedAt k := by
  obtain ⟨_, _, hlen, _, _, hmono⟩ := h
  obtain ⟨e, he, hl⟩ := Option.map_eq_some_iff.1 hk
  have hlt : k < n'.table.length := hlen ▸ (List.getElem?_eq_some_iff.1 he).1
  have he' := List.getElem?_eq_getElem hlt
  simp [Ntu.latchedAt, he', (hmono k e _ he he').1 hl]

/-- An event outside the list keeps its latched and its live flag. -/
theorem Ntu.onlyEvents_other {es : List Event} {n n' : Ntu} (h : n.onlyEvents es n') {e : Event}
    (he : e.code ∉ es.map Event.code) : n'.isLatched e = n.isLatched e ∧ n'.isLive e = n.isLive e := by
  obtain ⟨_, _, _, _, hother, _⟩ := h
  have := hother e.code he
  unfold Ntu.isLatched Ntu.isLive
  cases hn : n.table[e.code]? <;> cases hn' : n'.table[e.code]? <;> simp_all

theorem Ntu.isLatched_iff (n : Ntu) (e : Event) : n.isLatched e = true ↔ n.latchedAt e.code := by
  unfold Ntu.isLatched Ntu.latchedAt
  cases n.table[e.code]? <;> simp

theorem Sent.of_later {s u t : State} {c : Notice} (h : s.lki.sending.isSome = true → u.lki.sending = s.lki.sending)
    (hc : Sent u t c) : Sent s t c := by
  rcases hc with hc | ⟨hu, hc⟩
  · exact .inl hc
  · refine .inr ⟨?_, hc⟩
    cases hs : s.lki.sending with
    | none => rfl
    | some o => have := h (by simp [hs]); simp [hu, hs] at this

/-- What was sent by `u` is sent or carried on by `t`. -/
theorem Told.carry {s u t : State} (h : Told u t) {c : Notice} (hc : Sent s u c)
    (hs : s.lki.sending.isSome = true → u.lki.sending = s.lki.sending) : ∃ c', Sent s t c' ∧ c'.covers c u.ntu := by
  rcases hc with hc | ⟨hi, hc⟩
  · obtain ⟨c', hc', hcov⟩ := h.carried c hc
    exact ⟨c', hc'.of_later hs, hcov⟩
  · exact ⟨c, .inr ⟨hi, (h.sending (by simp [hc])).trans hc⟩, le_refl _, fun _ hk _ => hk⟩

theorem Told.refl (s : State) : Told s s where
  sending _ := rfl
  events := ⟨[], Ntu.onlyEvents_refl _ _⟩
  carried w hw := ⟨w, .inl hw, le_refl _, fun _ hk _ => hk⟩
  announced k e _ hn := by
    obtain ⟨h1, h2⟩ := hn
    rw [h1] at h2; cases h2
  judged h := h

/-- A newly notified entry is latched: it was eligible (R140). -/
theorem Ntu.onlyEvents_newly {es : List Event} {s t : State} (h : s.ntu.onlyEvents es t.ntu) {k : Nat}
    (hn : NewlyNotified s t k) : t.ntu.latchedAt k := by
  obtain ⟨_, _, _, _, _, hmono⟩ := h
  obtain ⟨hs, ht⟩ := hn
  obtain ⟨e, he, hen⟩ := Option.map_eq_some_iff.1 hs
  obtain ⟨e', he', hen'⟩ := Option.map_eq_some_iff.1 ht
  have hl : e'.latched = true := by
    rcases (hmono k e e' he he').2.2 hen' with h | h
    · rw [hen] at h; cases h
    · exact h.1
  simp [Ntu.latchedAt, he', hl]

theorem Told.trans {s u t : State} (h1 : Told s u) (h2 : Told u t) : Told s t := by
  obtain ⟨es, he1⟩ := h1.events
  obtain ⟨fs, he2⟩ := h2.events
  have he1' : s.ntu.onlyEvents (es ++ fs) u.ntu := Ntu.onlyEvents_mono he1 fun _ => List.mem_append_left _
  have he2' : u.ntu.onlyEvents (es ++ fs) t.ntu := Ntu.onlyEvents_mono he2 fun _ => List.mem_append_right _
  refine ⟨fun h => ?_, ⟨es ++ fs, Ntu.onlyEvents_trans he1' he2'⟩, fun w hw => ?_, fun k e he hn => ?_,
    fun h => h2.judged (h1.judged h)⟩
  · have := h1.sending h
    rw [h2.sending (this ▸ h), this]
  · obtain ⟨c, hc, hl, hk⟩ := h1.carried w hw
    obtain ⟨c', hc', hl', hk'⟩ := h2.carry hc h1.sending
    exact ⟨c', hc', hl.trans hl', fun k hw hs => hk' k (hk k hw hs) (Ntu.onlyEvents_latchedAt he1 hs)⟩
  · obtain ⟨hs, ht⟩ := hn
    have hlt : k < u.ntu.table.length := he2.2.2.1 ▸ (List.getElem?_eq_some_iff.1 he).1
    have hu := List.getElem?_eq_getElem hlt
    by_cases hnu : u.ntu.table[k].notified = true
    · have hsu : NewlyNotified s u k := ⟨hs, by simp [hu, hnu]⟩
      obtain ⟨c, hc, hl, hk⟩ := h1.announced k _ hu hsu
      obtain ⟨c', hc', hl', hk'⟩ := h2.carry hc h1.sending
      have hlev : e.level = u.ntu.table[k].level := by
        have := he2.2.2.2.1 k
        rw [he, hu] at this
        exact congrArg Prod.snd (Option.some.inj this)
      exact ⟨c', hc', hlev ▸ hl.trans hl', hk' k hk (Ntu.onlyEvents_newly he1 hsu)⟩
    · obtain ⟨c, hc, hl, hk⟩ := h2.announced k e he ⟨by simpa [hu] using hnu, ht⟩
      exact ⟨c, Sent.of_later h1.sending hc, hl, hk⟩

/-- A change outside the notices. -/
theorem Told.of_same {s t : State} (hn : t.ntu = s.ntu) (hw : t.lki.notice = s.lki.notice)
    (hs : t.lki.sending = s.lki.sending) : Told s t where
  sending _ := hs
  events := ⟨[], hn ▸ Ntu.onlyEvents_refl _ _⟩
  carried w h := ⟨w, .inl (hw.trans h), le_refl _, fun _ hk _ => hk⟩
  announced k e _ h := by
    obtain ⟨h1, h2⟩ := h
    rw [hn, h1] at h2; cases h2
  judged h := hn ▸ h

/-- The transmitter takes what it may (R166). -/
theorem Told.of_transmit {s t : State} {l : Lki} (hn : t.ntu = s.ntu) (ht : t.lki = l.transmit)
    (hw : l.notice = s.lki.notice) (hs : l.sending = s.lki.sending) : Told s t where
  sending h := by rw [ht, Lki.transmit_of_sending l (hs ▸ h), hs]
  events := ⟨[], hn ▸ Ntu.onlyEvents_refl _ _⟩
  carried w h := by
    refine ⟨w, ?_, le_refl _, fun _ hk _ => hk⟩
    cases hd : s.lki.sending with
    | none => exact .inr ⟨hd, by rw [ht, l.transmit_notice w (hs.trans hd) (hw.trans h)]⟩
    | some o => exact .inl (by rw [ht, Lki.transmit_of_sending l (by simp [hs, hd]), hw, h])
  announced k e _ h := by
    obtain ⟨h1, h2⟩ := h
    rw [hn, h1] at h2; cases h2
  judged h := hn ▸ h

theorem Told.pump (s : State) : Told s s.pump := .of_transmit (by simp) (by simp) rfl rfl
theorem Told.answer (s : State) (g : Byte) (st : Status) (p : List Byte) : Told s (s.answer g st p) :=
  .of_transmit (by simp) (s.answer_lki g st p) rfl rfl

/-! ### A judgement -/

/-- A content placed in the slot is sent: it stays there, or an idle transmitter takes it (R166). -/
theorem Sent.of_place {s t : State} {c : Notice} (h : t.lki = { s.lki with notice := some c }.transmit) : Sent s t c := by
  cases hs : s.lki.sending with
  | none => exact .inr ⟨hs, by rw [h, Lki.transmit_notice _ c (by simpa using hs) rfl]⟩
  | some o => exact .inl (by rw [h, Lki.transmit_of_sending _ (by simp [hs])])

/-- The fold that finds the highest level is no lower than its start or any element. -/
theorem le_foldl_max (ls : List Nat) (l x : Nat) (hx : x ≤ l ∨ x ∈ ls) : x ≤ ls.foldl max l := by
  induction ls generalizing l with
  | nil => simpa using hx
  | cons a ls ih =>
    refine ih (max l a) ?_
    rcases hx with hx | hx
    · exact .inl (hx.trans (le_max_left _ _))
    · exact (List.mem_cons.1 hx).imp (fun h : x = a => h.le.trans (le_max_right l a)) id

/-- The level of an eligible entry is among the eligible levels. -/
theorem Ntu.level_mem_eligibleLevels {n : Ntu} {k : Nat} {e : EventEntry} (he : n.table[k]? = some e)
    (hel : n.eligible k e = true) : e.level ∈ n.eligibleLevels :=
  List.mem_map.2 ⟨(e, k), List.mem_filter.2 ⟨List.mem_zipIdx_iff_getElem?.2 he, hel⟩, rfl⟩

/-- A judgement sends a NOTICE that shows every eligible entry, at its level at least (R141). -/
theorem State.judge_sent (s : State) {k : Nat} {e : EventEntry} (he : s.ntu.table[k]? = some e)
    (hel : s.ntu.eligible k e = true) :
    ∃ c, Sent s s.judge c ∧ e.level ≤ c.level ∧ c.latched[k]? = some true := by
  cases hls : s.ntu.eligibleLevels with
  | nil => have := Ntu.level_mem_eligibleLevels he hel; simp [hls] at this
  | cons l ls =>
    have hlev : e.level ≤ ls.foldl max l :=
      le_foldl_max ls l _ ((List.mem_cons.1 (hls ▸ Ntu.level_mem_eligibleLevels he hel)).imp_left le_of_eq)
    have hlat : e.latched = true := ((Ntu.eligible_iff _ _ _).1 hel).1
    refine ⟨_, Sent.of_place (by rw [s.judge_places l ls hls]; rfl), ?_, ?_⟩
    · unfold mergeNotice
      split
      · exact hlev
      · exact hlev.trans (le_max_right _ _)
    · unfold mergeNotice
      split <;> simp [Ntu.notice, he, hlat]

/-- A judgement sends a waiting NOTICE, or carries it on (R141). -/
theorem State.judge_carried (s : State) {w : Notice} (hw : s.lki.notice = some w) :
    ∃ c, Sent s s.judge c ∧ c.covers w s.ntu := by
  cases hls : s.ntu.eligibleLevels with
  | nil => exact ⟨w, .inl (by simpa [State.judge, hls] using hw), le_refl _, fun _ hk _ => hk⟩
  | cons l ls =>
    refine ⟨_, Sent.of_place (by rw [s.judge_places l ls hls]; rfl), ?_, fun k _ hk => ?_⟩
    · simp [mergeNotice, hw]
    · simpa [mergeNotice, hw, Ntu.notice, Ntu.latchedAt] using hk

/-- An entry that a raising newly notifies was eligible as raised, after an occurrence. -/
theorem State.raise_newly (s : State) (ps : List Event) (cs : List (Event × Bool)) {k : Nat} {e : EventEntry}
    (he : (s.raise ps cs).ntu.table[k]? = some e) (hn : NewlyNotified s (s.raise ps cs) k) :
    s.raisedCodes ps cs ≠ [] ∧ ∃ d, (s.ntu.raised ps cs).table[k]? = some d ∧ d.level = e.level
      ∧ (s.ntu.raised ps cs).eligible k d = true := by
  obtain ⟨hs, ht⟩ := hn
  obtain ⟨d, hd, hdn⟩ := Option.map_eq_some_iff.1 hs
  have hent := s.raise_entry ps cs k
  rw [hd, he] at hent
  obtain rfl := Option.some.inj hent
  simp [he, hdn] at ht
  refine ⟨ht.1, s.raisedEntry ps cs k d, by rw [State.raised_entry, hd]; rfl, rfl, ?_⟩
  exact (Ntu.eligible_congr (n := s.ntu) (n' := s.ntu.raised ps cs) rfl rfl k _).trans ht.2

theorem Told.raise (s : State) (ps : List Event) (cs : List (Event × Bool)) : Told s (s.raise ps cs) where
  sending := (Lki.onlyNotice_north (s.raise_onlyNotice ps cs)).2
  events := ⟨_, s.raise_onlyEvents ps cs⟩
  carried w hw := by
    rcases s.raise_cases ps cs with ⟨_, h⟩ | ⟨_, h⟩
    · exact ⟨w, .inl (by simpa [h] using hw), le_refl _, fun _ hk _ => hk⟩
    · obtain ⟨c, hc, hl, hk⟩ := (s.setNtu (s.ntu.raised ps cs)).judge_carried (w := w) (by simpa using hw)
      refine ⟨c, by rw [h]; exact hc, hl, fun k h1 h2 => hk k h1 ?_⟩
      obtain ⟨d, hd, hdl⟩ := Option.map_eq_some_iff.1 h2
      simp [Ntu.latchedAt, State.raised_entry, hd, hdl]
  announced k e he hn := by
    obtain ⟨hcodes, d, hd, hlev, hel⟩ := s.raise_newly ps cs he hn
    rcases s.raise_cases ps cs with ⟨h0, _⟩ | ⟨_, h⟩
    · exact absurd h0 hcodes
    · obtain ⟨c, hc, hl, hk⟩ := (s.setNtu (s.ntu.raised ps cs)).judge_sent hd hel
      exact ⟨c, by rw [h]; exact hc, hlev ▸ hl, hk⟩
  judged h k e he := s.raise_judged ps cs (.inr h) k e he

/-! ### Occurrences and conditions -/

/-- An event that is latched at the end of a chain whose table is judged throughout has occurred. -/
theorem Told.occurred {s t : State} (h : Told s t) {e : Event} (hl : t.ntu.isLatched e = true) (hj : t.ntu.allJudged) :
    Occurred s t e := by
  refine ⟨hl, fun k a b ha hb => ?_, h.announced⟩
  obtain ⟨es, _, _, _, _, _, hmono⟩ := h.events
  obtain ⟨_, hkeep, hnew⟩ := hmono k a b ha hb
  refine ⟨hnew, fun hc => ?_⟩
  rcases hc with hc | hc
  · exact hkeep hc
  · by_contra hb'
    have := (Ntu.eligible_iff t.ntu k b).2 ⟨hc.1, by simpa using hb', hc.2⟩
    simp [hj k b hb] at this

/-- An event raised at one link of a chain has occurred between its ends. -/
theorem Told.occurred_of_raise {s u t : State} {ps : List Event} {cs : List (Event × Bool)} {e : Event}
    (h1 : Told s u) (hlen : s.ntu.table.length = 32) (he : e.code ∈ u.raisedCodes ps cs)
    (h2 : Told (u.raise ps cs) t) : Occurred s t e := by
  have hne : u.raisedCodes ps cs ≠ [] := List.ne_nil_of_mem he
  obtain ⟨es, _, _, hlen1, _⟩ := h1.events
  obtain ⟨fs, hfs⟩ := h2.events
  have hlt : e.code < u.ntu.table.length := by rw [hlen1, hlen]; exact e.code_lt
  have hl : (u.raise ps cs).ntu.latchedAt e.code := by
    simp [Ntu.latchedAt, State.raise_entry, List.getElem?_eq_getElem hlt, he]
  exact ((h1.trans (.raise u ps cs)).trans h2).occurred
    ((Ntu.isLatched_iff _ _).2 (Ntu.onlyEvents_latchedAt hfs hl))
    (h2.judged fun k d hd => u.raise_judged ps cs (.inl hne) k d hd)

theorem State.mem_raisedCodes_of_pulse (s : State) {ps : List Event} (cs : List (Event × Bool)) {e : Event} (h : e ∈ ps) :
    e.code ∈ s.raisedCodes ps cs :=
  List.mem_append_left _ (List.mem_map_of_mem h)

theorem Told.occurred_of_pulse {s t : State} (u : State) {ps : List Event} (cs : List (Event × Bool)) {e : Event}
    (h1 : Told s u) (hlen : s.ntu.table.length = 32) (he : e ∈ ps) (h2 : Told (u.raise ps cs) t) : Occurred s t e :=
  h1.occurred_of_raise hlen (u.mem_raisedCodes_of_pulse cs he) h2

/-- The entry of an event that a raising delivers as a condition. -/
theorem State.raise_condition (s : State) (ps : List Event) (cs : List (Event × Bool)) {e : Event} {v : Bool}
    (hlen : s.ntu.table.length = 32)
    (hv : (cs.map fun (c : Event × Bool) => (c.1.code, c.2)).lookup e.code = some v) :
    (s.raise ps cs).ntu.isLive e = v := by
  have hlt : e.code < s.ntu.table.length := by rw [hlen]; exact e.code_lt
  simp [Ntu.isLive, State.raise_entry, List.getElem?_eq_getElem hlt, hv]

end Sys2Proof.Machine
end

section
/-! The requests of SRT (sections 1.6 to 1.8): what each owner gives for its argument list, and the statements about them. -/

namespace Sys2Proof.Machine

/-! ### COUNT_READ (R15) -/

section
variable (s : State) (first count : Byte)

theorem countReadOwner_badIndex (h : 53 < first.toNat ∨ 54 < first.toNat + count.toNat) :
    countReadOwner [first, count] s = ⟨s, .badIndex, []⟩ := by
  simp [countReadOwner, u8, h, Answer.refuse]

theorem countReadOwner_badField (h1 : first.toNat ≤ 53) (h2 : first.toNat + count.toNat ≤ 54)
    (h : count.toNat = 0 ∨ 16 < count.toNat) : countReadOwner [first, count] s = ⟨s, .badField, []⟩ := by
  have h12 : ¬(53 < first.toNat ∨ 54 < first.toNat + count.toNat) := by omega
  simp [countReadOwner, u8, h12, h, Answer.refuse]

theorem countReadOwner_ok (h1 : first.toNat ≤ 53) (h2 : first.toNat + count.toNat ≤ 54) (h3 : 1 ≤ count.toNat)
    (h4 : count.toNat ≤ 16) : countReadOwner [first, count] s
      = ⟨s, .ok, ((s.srt.holding.drop first.toNat).take count.toNat).flatMap le16⟩ := by
  have h12 : ¬(53 < first.toNat ∨ 54 < first.toNat + count.toNat) := by omega
  have h34 : ¬(count.toNat = 0 ∨ 16 < count.toNat) := by omega
  simp [countReadOwner, u8, h12, h34, Answer.ok]

/-- COUNT_READ only answers. -/
theorem countReadOwner_state : ∃ st p, countReadOwner [first, count] s = ⟨s, st, p⟩ := by
  unfold countReadOwner Answer.refuse Answer.ok
  dsimp only
  split
  · exact ⟨_, _, rfl⟩
  · split <;> exact ⟨_, _, rfl⟩
end

/-- Settles O45: each range of the checks of R15 has its answer, and no answer touches the state. -/
theorem countReadReadsTheHoldingSet : Obligations.CountReadReadsTheHoldingSet := by
  unfold Obligations.CountReadReadsTheHoldingSet
  intro s tag first count hserve
  have answer := fun st p => s.serve_only .countRead countReadOwner tag [first, count] st p hserve rfl rfl
  refine ⟨_, rfl, ?_, fun h => ?_, fun h1 h2 h => ?_, fun h1 h2 h3 h4 => ?_⟩
  · obtain ⟨st, p, h⟩ := countReadOwner_state s first count
    exact (answer st p h).2
  · exact (answer _ _ (countReadOwner_badIndex s first count h)).1
  · exact (answer _ _ (countReadOwner_badField s first count h1 h2 h)).1
  · exact (answer _ _ (countReadOwner_ok s first count h1 h2 h3 h4)).1

/-! ### ROUTE_READ (R11) -/

theorem routeReadOwner_none (s : State) (i : Byte) (h : s.srt.table[i.toNat]? = none) :
    routeReadOwner [i] s = ⟨s, .badIndex, []⟩ := by
  simp [routeReadOwner, u8, h, Answer.refuse]

theorem routeReadOwner_some (s : State) (i : Byte) (e : RouteEntry) (h : s.srt.table[i.toNat]? = some e) :
    routeReadOwner [i] s
      = ⟨s, .ok, e.bytes i.toNat (decide (s.srt.overrideEntry = some i.toNat)) s.srt.defaultRoute false⟩ := by
  simp [routeReadOwner, u8, h, Answer.ok, beq_eq_decide]

/-- Settles O42: the entry at the index decides between the refusal and the report. -/
theorem routeReadReports : Obligations.RouteReadReports := by
  unfold Obligations.RouteReadReports
  intro s tag i hserve hlen
  have answer := fun st p => s.serve_only .routeRead routeReadOwner tag [i] st p hserve rfl rfl
  cases hi : s.srt.table[i.toNat]? with
  | none =>
    obtain ⟨ha, ho⟩ := answer _ _ (routeReadOwner_none s i hi)
    exact ⟨_, rfl, ho, fun _ => ha, fun e he => nomatch he⟩
  | some d =>
    obtain ⟨ha, ho⟩ := answer _ _ (routeReadOwner_some s i d hi)
    refine ⟨_, rfl, ho, fun h => ?_, fun e he => ?_⟩
    · have := (List.getElem?_eq_some_iff.1 hi).1
      omega
    · obtain rfl := Option.some.inj he
      simpa [RouteEntry.bytes, b8] using ha

/-! ### ROUTE_WRITE (R8, R10, R21) -/

theorem Action.ofCode_eq_some (n : Nat) (h : n ≤ 2) : ∃ a, Action.ofCode n = some a ∧ a.code = n := by
  interval_cases n <;> exact ⟨_, rfl, rfl⟩
theorem Action.ofCode_eq_none (n : Nat) (h : 2 < n) : Action.ofCode n = none := by
  simp only [Action.ofCode]; rw [if_neg, if_neg, if_neg] <;> omega
theorem TapRole.ofCode_eq_some (n : Nat) (h : n ≤ 6) : ∃ r, TapRole.ofCode n = some r ∧ r.code = n := by
  interval_cases n <;> exact ⟨_, rfl, rfl⟩
theorem TapRole.ofCode_eq_none (n : Nat) (h : 6 < n) : TapRole.ofCode n = none := by
  simp only [TapRole.ofCode]; rw [if_neg, if_neg, if_neg, if_neg, if_neg, if_neg, if_neg] <;> omega
theorem portOfCode_eq_some (n : Nat) (h : n ≤ 3) : ∃ p, portOfCode n = some p ∧ portCode p = n := by
  interval_cases n <;> exact ⟨_, rfl, rfl⟩
theorem portOfCode_eq_none (n : Nat) (h : 3 < n) : portOfCode n = none := by
  simp only [portOfCode]; rw [if_neg, if_neg, if_neg, if_neg] <;> omega

/-- DECIMATE takes a factor of 2 to 64, the other actions none (R10). -/
theorem Action.factorOk_iff (a : Action) (f : Nat) :
    a.factorOk f = true ↔ (a.code ≠ 1 → f = 0) ∧ (a.code = 1 → 2 ≤ f ∧ f ≤ 64) := by
  cases a <;> simp [Action.factorOk, Action.code]

section
variable (i fl m k act fac tap port : Byte)

/-- A field that R10 refuses leaves no entry. -/
theorem RouteEntry.ofArgs_none (h : 2 < act.toNat ∨ 6 < tap.toNat ∨ 3 < port.toNat ∨ (act.toNat ≠ 1 ∧ fac.toNat ≠ 0)
      ∨ (act.toNat = 1 ∧ (fac.toNat < 2 ∨ 64 < fac.toNat))) :
    RouteEntry.ofArgs [i, fl, m, k, act, fac, tap, port] = none := by
  by_cases ha : act.toNat ≤ 2
  · by_cases ht : tap.toNat ≤ 6
    · by_cases hp : port.toNat ≤ 3
      · obtain ⟨a, ha', hac⟩ := Action.ofCode_eq_some _ ha
        obtain ⟨r, ht', _⟩ := TapRole.ofCode_eq_some _ ht
        obtain ⟨p, hp', _⟩ := portOfCode_eq_some _ hp
        have hf : a.factorOk fac.toNat = false := by
          rw [Bool.eq_false_iff, ne_eq, Action.factorOk_iff, hac]
          omega
        simp [RouteEntry.ofArgs, u8, ha', ht', hp', hf]
      · simp [RouteEntry.ofArgs, u8, portOfCode_eq_none _ (not_le.1 hp)]
    · simp [RouteEntry.ofArgs, u8, TapRole.ofCode_eq_none _ (not_le.1 ht)]
  · simp [RouteEntry.ofArgs, u8, Action.ofCode_eq_none _ (not_le.1 ha)]

/-- The entry that accepted fields spell (R10, Table 10-7). -/
theorem RouteEntry.ofArgs_some (ha : act.toNat ≤ 2) (ht : tap.toNat ≤ 6) (hp : port.toNat ≤ 3)
    (h0 : act.toNat ≠ 1 → fac.toNat = 0) (h1 : act.toNat = 1 → 2 ≤ fac.toNat ∧ fac.toNat ≤ 64) :
    ∃ e, RouteEntry.ofArgs [i, fl, m, k, act, fac, tap, port] = some e
      ∧ e.valid = fl.getLsbD 0 ∧ e.pinned = fl.getLsbD 1 ∧ e.guarded = fl.getLsbD 2 ∧ e.matchId = m ∧ e.mask = k
      ∧ e.action.code = act.toNat ∧ e.factor = fac.toNat ∧ e.tap.code = tap.toNat ∧ portCode e.port = port.toNat
      ∧ e.passed = 0 ∧ e.withheld = 0 ∧ e.phase = 0 := by
  obtain ⟨a, ha', hac⟩ := Action.ofCode_eq_some _ ha
  obtain ⟨r, ht', hrc⟩ := TapRole.ofCode_eq_some _ ht
  obtain ⟨p, hp', hpc⟩ := portOfCode_eq_some _ hp
  have hf : a.factorOk fac.toNat = true := by
    rw [Action.factorOk_iff, hac]
    exact ⟨h0, h1⟩
  have h4 : u8 [i, fl, m, k, act, fac, tap, port] 4 = act.toNat := rfl
  have h5 : u8 [i, fl, m, k, act, fac, tap, port] 5 = fac.toNat := rfl
  have h6 : u8 [i, fl, m, k, act, fac, tap, port] 6 = tap.toNat := rfl
  have h7 : u8 [i, fl, m, k, act, fac, tap, port] 7 = port.toNat := rfl
  refine ⟨_, by simp only [RouteEntry.ofArgs, h4, h5, h6, h7, ha', ht', hp', hf, if_true]; rfl, ?_⟩
  exact ⟨rfl, rfl, rfl, rfl, rfl, hac, rfl, hrc, hpc, rfl, rfl, rfl⟩
end

/-- Three flag bits make up a byte below 8. -/
theorem flagBits_of_lt (n : Nat) (h : n < 8) :
    (n.testBit 0).toNat + 2 * (n.testBit 1).toNat + 4 * (n.testBit 2).toNat = n := by
  interval_cases n <;> rfl

theorem State.collide_true (s : State) :
    s.collide true = (s.setSrt { s.srt with overrideEntry := none }).raise [.routeCollision] [] := rfl
theorem State.collide_false (s : State) : s.collide false = s := rfl

theorem Told.collide (s : State) (hit : Bool) : Told s (s.collide hit) := by
  cases hit
  · exact .refl s
  · rw [State.collide_true]
    exact Told.trans (u := s.setSrt { s.srt with overrideEntry := none }) (.of_same rfl rfl rfl) (.raise _ _ _)

theorem State.collide_onlyEvents (s : State) (hit : Bool) : s.ntu.onlyEvents [.routeCollision] (s.collide hit).ntu := by
  cases hit
  · exact Ntu.onlyEvents_refl _ _
  · simpa [State.collide_true] using
      State.raise_onlyEvents (s.setSrt { s.srt with overrideEntry := none }) [.routeCollision] []

/-- A request whose owner's event ends with a collision at the state `u` that differs from `s` in SRT alone: its answer, and
what the collision raises (R21, R154). -/
theorem State.collide_answer (s : State) (r : Srt) (hit : Bool) (tag : Byte) (p : List Byte)
    (hlen : s.ntu.table.length = 32) :
    let t := ((s.setSrt r).collide hit).answer tag .ok p
    t.srt = { r with overrideEntry := if hit then none else r.overrideEntry }
      ∧ Answered s t tag .ok p ∧ (hit = true → Occurred s t .routeCollision) ∧ (hit = false → t.ntu = s.ntu)
      ∧ s.ntu.onlyEvents [.routeCollision] t.ntu ∧ s.lki.onlyNorth t.lki ∧ t.ppc = s.ppc ∧ t.lmc = s.lmc
      ∧ t.mtm = s.mtm ∧ t.pending = s.pending := by
  have hn : s.lki.onlyNotice ((s.setSrt r).collide hit).lki := (s.setSrt r).collide_onlyNotice hit
  refine ⟨by simp, ?_, fun h => ?_, fun h => by subst h; simp [State.collide_false], ?_, ?_, by simp, by simp, by simp, by simp⟩
  · obtain ⟨h1, h2, h3, h4, h5⟩ := ((s.setSrt r).collide hit).answered tag .ok p
    exact ⟨h1.trans (by rw [Lki.onlyNotice_replyTrail hn]), by simp, by simp, h4, by simpa using h5⟩
  · subst h
    exact Told.occurred_of_pulse ((s.setSrt r).setSrt { r with overrideEntry := none }) [] (.of_same rfl rfl rfl) hlen
      (List.mem_singleton_self _) (.answer _ _ _ _)
  · simpa using (s.setSrt r).collide_onlyEvents hit
  · exact Lki.onlyNorth_trans (Lki.onlyNotice_north hn) (State.answer_onlyNorth _ _ _ _)

/-- The owner's event of an accepted ROUTE_WRITE (R10, R21): the reply never shows an override, since the write drops it. -/
theorem routeWriteOwner_ok (s : State) (i : Byte) (rest : List Byte) (e : RouteEntry) (hi : i.toNat ≤ 23)
    (he : RouteEntry.ofArgs (i :: rest) = some e) :
    routeWriteOwner (i :: rest) s =
      ⟨(s.setSrt { s.srt with table := s.srt.table.set i.toNat e, defaultRoute := s.srt.defaultRoute && !e.valid }).collide
        (decide (s.srt.overrideEntry = some i.toNat)), .ok,
        e.bytes i.toNat false (s.srt.defaultRoute && !e.valid) (s.srt.defaultRoute && e.valid)⟩ := by
  have hu : u8 (i :: rest) 0 = i.toNat := rfl
  unfold routeWriteOwner
  simp only [hu, he, if_neg (not_lt.2 hi), State.collide_srt, State.setSrt_srt]
  by_cases ho : s.srt.overrideEntry = some i.toNat <;> simp [ho, beq_eq_decide, Bool.and_comm, Answer.ok]

/-- Settles O41: the index, then the fields, then the write with its collision (`State.collide_answer`). -/
theorem routeWriteStoresAnEntry : Obligations.RouteWriteStoresAnEntry := by
  unfold Obligations.RouteWriteStoresAnEntry
  intro s tag i fl m k act fac tap port hserve hfl hlen
  have hres : RequestCode.reservedSet .routeWrite [i, fl, m, k, act, fac, tap, port] = false := by
    simpa [RequestCode.reservedSet, RequestCode.reserved, u8] using hfl
  have answer := fun st p => s.serve_only .routeWrite routeWriteOwner tag _ st p hserve rfl hres
  refine ⟨fun hi => ?_, fun hi hbad => ?_, fun hi ha ht hp h0 h1 => ?_⟩
  · obtain ⟨h1, h2⟩ := answer .badIndex [] (by simp [routeWriteOwner, u8, hi, Answer.refuse])
    exact ⟨_, rfl, h1, h2⟩
  · obtain ⟨h1, h2⟩ := answer .badField [] (by
      simp [routeWriteOwner, u8, not_lt.2 hi, RouteEntry.ofArgs_none i fl m k act fac tap port hbad, Answer.refuse])
    exact ⟨_, rfl, h1, h2⟩
  · obtain ⟨e, he, hv, hpin, hg, hm, hk, hac, hfac, htap, hport, hpass, hwith, hph⟩ :=
      RouteEntry.ofArgs_some i fl m k act fac tap port ha ht hp h0 h1
    have hbytes : e.bytes i.toNat false (s.srt.defaultRoute && !e.valid) (s.srt.defaultRoute && e.valid)
        = [i, fl, m, k, act, fac, tap, port, 0#8, 0#8, 0#8, 0#8, 0#8, BitVec.ofNat 8
            (2 * (s.srt.defaultRoute && !e.valid).toNat + 4 * (s.srt.defaultRoute && e.valid).toNat)] := by
      have hflags : BitVec.ofNat 8 (e.valid.toNat + 2 * e.pinned.toNat + 4 * e.guarded.toNat) = fl := by
        rw [hv, hpin, hg]
        exact (congrArg _ (flagBits_of_lt _ hfl)).trans (by simp)
      simp [RouteEntry.bytes, b8, le16, hflags, hm, hk, hac, hfac, htap, hport, hpass, hwith, hph]
    have hown := routeWriteOwner_ok s i _ e hi he
    rw [hbytes] at hown
    have hstep : s.serve .routeWrite routeWriteOwner = _ := (s.serve_ok _ _ tag _ hserve rfl hres).trans (by rw [hown])
    obtain ⟨-, hans, hocc, hntu, hev, hnorth, hppc, hlmc, hmtm, hpend⟩ := s.collide_answer
      { s.srt with table := s.srt.table.set i.toNat e, defaultRoute := s.srt.defaultRoute && !e.valid }
      (decide (s.srt.overrideEntry = some i.toNat)) tag _ hlen
    refine ⟨_, e, congrArg Host.Outcome.next hstep, hv, hpin, hg, hm, hk, hac, hfac, htap, hport, hpass, hwith, hph, ?_, hans,
      fun h => hocc (by simp [h]), fun h => hntu (by simpa using h), hev, hnorth, hppc, hlmc, hmtm, hpend⟩
    simp

/-! ### ROUTE_FLUSH (R12, R21) -/

/-- The flush touches the overridden entry: it is not pinned (R12, R21). -/
def Srt.flushHits (r : Srt) : Bool :=
  match r.overrideEntry with
  | some i => (r.table[i]?).any fun e => !e.pinned
  | none => false

theorem Srt.flushHits_none {r : Srt} (h : r.overrideEntry = none) : r.flushHits = false := by simp [Srt.flushHits, h]
theorem Srt.flushHits_some {r : Srt} {i : Nat} {e : RouteEntry} (h : r.overrideEntry = some i) (he : r.table[i]? = some e) :
    r.flushHits = !e.pinned := by simp [Srt.flushHits, h, he]

theorem routeFlushOwner_eq (a : List Byte) (s : State) : routeFlushOwner a s =
    ⟨(s.setSrt { s.srt with table := s.srt.table.map RouteEntry.flush }).collide s.srt.flushHits, .ok,
      b8 (s.srt.table.countP fun e => e.valid && !e.pinned)⟩ := rfl

/-- Settles O43: the flush with its collision, which an override meets exactly where its entry is not pinned. -/
theorem routeFlushInvalidates : Obligations.RouteFlushInvalidates := by
  unfold Obligations.RouteFlushInvalidates
  intro s tag hserve hsound hlen
  have hstep := s.serve_ok .routeFlush routeFlushOwner tag [] hserve rfl rfl
  rw [routeFlushOwner_eq] at hstep
  obtain ⟨hsrt, hans, hocc, hntu, hev, hnorth, hppc, hlmc, hmtm, hpend⟩ := s.collide_answer
    { s.srt with table := s.srt.table.map RouteEntry.flush } s.srt.flushHits tag
    (b8 (s.srt.table.countP fun e => e.valid && !e.pinned)) hlen
  refine ⟨_, congrArg Host.Outcome.next hstep, by rw [hsrt]; rfl, by rw [hsrt], by rw [hsrt], by rw [hsrt], ?_, fun ho => ?_,
    fun i e ho hi => ⟨fun hp => ?_, fun hp => ?_⟩, hev, hnorth, hppc, hlmc, hmtm, hpend⟩
  · simpa [b8, List.countP_eq_length_filter] using hans
  · have hf := Srt.flushHits_none ho
    exact ⟨by rw [hsrt, hf]; exact ho, hntu hf⟩
  · have hf : s.srt.flushHits = false := by simp [Srt.flushHits_some ho hi, hp]
    exact ⟨by rw [hsrt, hf]; exact ho, hntu hf⟩
  · have ht : s.srt.flushHits = true := by simp [Srt.flushHits_some ho hi, hp]
    exact ⟨by rw [hsrt, ht]; rfl, hocc ht⟩

/-! ### COUNT_SNAPSHOT (R14) -/

/-- The two counters of entry i stand at the places 2 i and 2 i + 1 (Table 1-4). -/
theorem flatMap_counters_getElem? (table : List RouteEntry) (i : Nat) (e : RouteEntry) (h : table[i]? = some e) :
    (table.flatMap fun e => [e.passed, e.withheld])[2 * i]? = some e.passed
      ∧ (table.flatMap fun e => [e.passed, e.withheld])[2 * i + 1]? = some e.withheld := by
  induction table generalizing i with
  | nil => simp at h
  | cons d rest ih =>
    cases i with
    | zero => obtain rfl := Option.some.inj h; exact ⟨rfl, rfl⟩
    | succ j => exact ih j (by simpa using h)

theorem Srt.entryCounters_length (r : Srt) : r.entryCounters.length = 2 * r.table.length := by
  simp [Srt.entryCounters, List.length_flatMap, Nat.mul_comm]

theorem Srt.entryCounters_getElem? (r : Srt) (rest : List Nat) (i : Nat) (e : RouteEntry) (h : r.table[i]? = some e) :
    (r.entryCounters ++ rest)[2 * i]? = some e.passed ∧ (r.entryCounters ++ rest)[2 * i + 1]? = some e.withheld := by
  have hi := (List.getElem?_eq_some_iff.1 h).1
  have hl := r.entryCounters_length
  rw [List.getElem?_append_left (by omega), List.getElem?_append_left (by omega)]
  exact flatMap_counters_getElem? r.table i e h

theorem State.liveCounters_length (s : State) (h : s.srt.table.length = 24) : s.liveCounters.length = 54 := by
  simp [State.liveCounters, Srt.entryCounters_length, h]

theorem Lki.clearCounters_port (l : Lki) (p : PortId) :
    l.clearCounters.ports.get p = { l.ports.get p with errors := 0 } := by cases p <;> rfl

/-- Settles O44: the owner copies the counters, and clears them with the flag. -/
theorem snapshotCopiesAndClears : Obligations.SnapshotCopiesAndClears := by
  unfold Obligations.SnapshotCopiesAndClears
  intro s tag v hserve hv hlen
  have hres : RequestCode.reservedSet .countSnapshot [v] = false := by
    simpa [RequestCode.reservedSet, RequestCode.reserved, u8] using Nat.lt_succ_of_le hv
  have hstep := s.serve_ok .countSnapshot countSnapshotOwner tag [v] hserve rfl hres
  have hans := s.serve_answered .countSnapshot countSnapshotOwner tag [v] hserve rfl hres
  have hcount := fun (i : Nat) (e : RouteEntry) => s.srt.entryCounters_getElem? [s.srt.unmatched, s.lki.linkErrors,
    s.lki.ports.fp0.errors, s.lki.ports.fp1.errors, s.lki.ports.fp2.errors, s.lki.ports.fp3.errors] i e
  have hdrop : s.liveCounters.drop 48 = [s.srt.unmatched, s.lki.linkErrors, s.lki.ports.fp0.errors, s.lki.ports.fp1.errors,
      s.lki.ports.fp2.errors, s.lki.ports.fp3.errors] := by
    have : s.srt.entryCounters.length = 48 := by rw [Srt.entryCounters_length, hlen]
    rw [State.liveCounters, ← this, List.drop_left]
  by_cases h1 : v.toNat = 1
  · have hown : countSnapshotOwner [v] s = ⟨((s.setSrt { s.srt with holding := s.liveCounters }).setSrt
        { s.srt with holding := s.liveCounters : Srt }.clearCounters).setLki s.lki.clearCounters, .ok, []⟩ := by
      simp [countSnapshotOwner, u8, h1, Answer.ok]
    rw [hown] at hstep hans
    have hnorth := State.answer_onlyNorth (((s.setSrt { s.srt with holding := s.liveCounters }).setSrt
        { s.srt with holding := s.liveCounters : Srt }.clearCounters).setLki s.lki.clearCounters) tag .ok []
    rw [hstep] at hans
    refine ⟨_, congrArg Host.Outcome.next hstep, hans rfl rfl, by simpa [Srt.clearCounters] using s.liveCounters_length hlen,
      by simpa [Srt.clearCounters, State.liveCounters] using hcount, by simpa [Srt.clearCounters] using hdrop, fun h0 => by omega, fun _ =>
      ⟨by simp [Srt.clearCounters], by simp [Lki.clearCounters], fun p => by simp [Lki.clearCounters_port], ?_⟩,
      by simp, by simp, by simp, by simp, by simp⟩
    simpa [Lki.clearCounters] using hnorth
  · have hown : countSnapshotOwner [v] s = ⟨s.setSrt { s.srt with holding := s.liveCounters }, .ok, []⟩ := by
      simp [countSnapshotOwner, u8, h1, Answer.ok]
    rw [hown] at hstep hans
    rw [hstep] at hans
    exact ⟨_, congrArg Host.Outcome.next hstep, hans rfl rfl, by simpa using s.liveCounters_length hlen,
      by simpa [State.liveCounters] using hcount, by simpa using hdrop, fun _ => ⟨by simp, State.answer_onlyNorth _ _ _ _⟩, fun h => absurd h h1,
      by simp, by simp, by simp, by simp, by simp⟩

/-! ### PASS (R16 to R18, R170) -/

/-- The entry for a destination is the one that PASS finds (R2, R16). -/
theorem Srt.find?_of_entryFor {r : Srt} {id : Byte} {i : Nat} {e : RouteEntry} (h : r.entryFor id i e) :
    r.table.find? (fun e => e.takes id) = some e := by
  obtain ⟨he, hv, hm, hlow⟩ := h
  obtain ⟨hi, rfl⟩ := List.getElem?_eq_some_iff.1 he
  refine List.find?_eq_some_iff_getElem.2 ⟨(RouteEntry.takes_iff _ _).2 ⟨hv, hm⟩, i, hi, rfl, fun j hj => ?_⟩
  rw [Bool.not_eq_true', Bool.eq_false_iff]
  intro ht
  obtain ⟨hv', hm'⟩ := (RouteEntry.takes_iff _ _).1 ht
  exact hlow j _ hj (List.getElem?_eq_getElem _) hv' hm'

theorem Srt.find?_of_noEntry {r : Srt} {id : Byte} (h : r.noEntry id) : r.table.find? (fun e => e.takes id) = none :=
  List.find?_eq_none.2 fun e he ht => h e he ((RouteEntry.takes_iff e id).1 ht).1 ((RouteEntry.takes_iff e id).1 ht).2

/-- The protective conditions of Table 1-5. -/
theorem State.protectiveCondition_iff (s : State) (r : TapRole) : s.protectiveCondition r = true ↔
    (r = .accel ∧ s.mtm.phase ≠ .idle)
      ∨ (r = .gaugeA ∧ (s.ppc.packA.state = .qualifying ∨ s.ppc.packA.state = .releasing))
      ∨ (r = .gaugeB ∧ (s.ppc.packB.state = .qualifying ∨ s.ppc.packB.state = .releasing))
      ∨ (r = .bridge ∧ s.ppc.bridge.switch = true) := by
  cases r <;> simp [State.protectiveCondition]

section
variable (s : State) (dest : Byte) (payload : List Byte)

theorem passOwner_badLength (h : payload.length = 0 ∨ 40 < payload.length) :
    passOwner (dest :: payload) s = ⟨s, .badLength, []⟩ := by
  simp only [passOwner, List.drop_succ_cons, List.drop_zero, Bool.or_eq_true, decide_eq_true_eq, if_pos h, Answer.refuse]

theorem passOwner_noRoute (h1 : 1 ≤ payload.length) (h2 : payload.length ≤ 40) (h : s.srt.noEntry dest) :
    passOwner (dest :: payload) s = ⟨s, .noRoute, []⟩ := by
  have hl : ¬(payload.length = 0 ∨ 40 < payload.length) := by omega
  simp only [passOwner, List.drop_succ_cons, List.drop_zero, Bool.or_eq_true, decide_eq_true_eq, if_neg hl,
    List.getD_cons_zero, Srt.find?_of_noEntry h, Answer.refuse]

theorem passOwner_matched {i : Nat} {e : RouteEntry} (h1 : 1 ≤ payload.length) (h2 : payload.length ≤ 40)
    (h : s.srt.entryFor dest i e) : passOwner (dest :: payload) s =
      if e.guarded && s.protectiveCondition e.tap then Answer.refuse s .isProtected else s.offerPort e.port dest payload := by
  have hl : ¬(payload.length = 0 ∨ 40 < payload.length) := by omega
  simp only [passOwner, List.drop_succ_cons, List.drop_zero, Bool.or_eq_true, decide_eq_true_eq, if_neg hl,
    List.getD_cons_zero, Srt.find?_of_entryFor h]
end

/-- Settles O46: length, match, guard and buffer in the order of R16 to R18. -/
theorem passReachesItsPort : Obligations.PassReachesItsPort := by
  unfold Obligations.PassReachesItsPort
  intro s tag dest payload hserve
  have hlen : RequestCode.lengthOk .pass (dest :: payload) = true := by simp [RequestCode.lengthOk, RequestCode.argLength]
  have answer : ∀ st, passOwner (dest :: payload) s = ⟨s, st, []⟩ →
      ∃ t, exec .pass s = .next t ∧ Answered s t tag st [] ∧ OnlyReply s t := fun st h => by
    obtain ⟨h1, h2⟩ := s.serve_only .pass passOwner tag _ st [] hserve hlen rfl h
    exact ⟨_, rfl, h1, h2⟩
  refine ⟨fun h => answer _ (passOwner_badLength s dest payload h),
    fun h1 h2 h => answer _ (passOwner_noRoute s dest payload h1 h2 h), fun h1 h2 i e he => ?_⟩
  have hown := passOwner_matched s dest payload h1 h2 he
  intro condition
  have open_ : e.guarded = false ∨ ¬condition → (e.guarded && s.protectiveCondition e.tap) = false := by
    rw [Bool.and_eq_false_iff, ← Bool.not_eq_true (s.protectiveCondition e.tap), State.protectiveCondition_iff]
    exact id
  refine ⟨fun hg hc => answer _ (hown.trans ?_), fun hg hb => answer _ (hown.trans ?_), fun hg hb => ?_⟩
  · rw [hg, (s.protectiveCondition_iff e.tap).2 hc]; rfl
  · rw [open_ hg, if_neg Bool.false_ne_true, State.offerPort, if_pos hb]; rfl
  · rw [open_ hg, if_neg Bool.false_ne_true, State.offerPort, if_neg (by simp [hb])] at hown
    have hstep := s.serve_ok .pass passOwner tag _ hserve hlen rfl
    have hans := s.serve_answered .pass passOwner tag _ hserve hlen rfl
    rw [hown] at hstep hans
    rw [hstep] at hans
    exact ⟨_, congrArg Host.Outcome.next hstep, hans rfl rfl, State.answer_onlyNorth _ _ _ _, by simp [Answer.ok]⟩

end Sys2Proof.Machine
end

section
/-! The copies that blocks hold of each other's state (R110, R124, R159): the agreement alone does not carry over a step. -/

namespace Sys2Proof.Machine

/-- A frame with an ACCEL sample of 7 g from source 0x10, which the factory table taps to MTM (Table 1-3). -/
def hardKnock : WireFrame := frameOf 1 ([0x10#8, 0#8, 1#8] ++ sle16 7000 ++ sle16 0 ++ sle16 0)

/-- The reset state with a RESTART at the head of RQH that nothing keeps from being taken, and that sample as the next
command. RQH takes its head whenever R152 lets it, so `State.queuesSound` rules this state out; `State.copiesAgree`
does not. -/
def untakenRestart : State :=
  { State.reset with
    rqh := { State.reset.rqh with queue := [{ tag := 7#8, code := RequestCode.restart.byte, args := [] }] }
    pending := [.sampleFrameReceived .fp0 hardKnock] }

/-- What the step from `untakenRestart` leaves. -/
def grantedInDrop : State := (untakenRestart.setPending []).receivePort .fp0 hardKnock

theorem untakenRestart_copiesAgree : untakenRestart.copiesAgree := by
  unfold State.copiesAgree; decide +kernel

/-- The placing of the sample lets RQH take the RESTART in IDLE, and the tap of the same sample then begins a drop. -/
theorem grantedInDrop_eq : grantedInDrop.restartGranted = true ∧ grantedInDrop.mtm.phase = .impact := by decide +kernel

/-- Refutes O7: the agreement of the copies says nothing of what waits in RQH's queue. From `untakenRestart`, which no run
reaches, a RESTART is taken in IDLE in the middle of the sample that begins a drop, so it is in progress, granted, outside
IDLE. -/
theorem not_copiesStayInStep : ¬ Obligations.CopiesStayInStep := by
  unfold Obligations.CopiesStayInStep
  intro h
  have hstep : step untakenRestart = .next grantedInDrop := rfl
  obtain ⟨_, _, _, _, _, _, _, hidle⟩ := h _ _ untakenRestart_copiesAgree hstep
  obtain ⟨hgranted, hphase⟩ := grantedInDrop_eq
  have := hidle hgranted
  simp [hphase] at this

end Sys2Proof.Machine
end

section
/-! The chain of the notices through the events of the other blocks: each is a `Told` link. -/

namespace Sys2Proof.Machine

/-- A raising at a state that differs from `s` outside NTU and the notices. -/
theorem Told.raise_at {s u : State} (hn : u.ntu = s.ntu) (hl : u.lki = s.lki) (ps : List Event) (cs : List (Event × Bool)) :
    Told s (u.raise ps cs) :=
  (Told.of_same hn (by rw [hl]) (by rw [hl])).trans (.raise u ps cs)

/-! ### LMC -/

theorem Told.lmcEnd (s : State) (m : Lmc) (ps : List Event) : Told s (s.lmcEnd m ps) :=
  Told.raise_at (s := s) (u := s.setLmc m) rfl rfl ps m.conditions
theorem Told.lmcCut (s : State) (m : Lmc) (c : Nat) : Told s (s.lmcCut m c) := by
  unfold State.lmcCut
  split
  · exact .lmcEnd s _ _
  · exact .lmcEnd s _ _
theorem Told.deliverCeiling (s : State) (c : Nat) : Told s (s.deliverCeiling c) := .lmcCut s _ c
theorem Told.freezeOff (s : State) : Told s s.freezeOff := .lmcEnd s _ []
theorem Told.lightSample (s : State) (r : LightRole) (b : List Byte) : Told s (s.lightSample r b) := by
  unfold State.lightSample
  split
  · exact .lmcEnd s _ []
  · exact .lmcEnd s _ []

/-! ### PPC -/

theorem Told.ppcQuiet (s : State) (p : Ppc) (ps : List Event) : Told s (s.ppcQuiet p ps) :=
  Told.raise_at (s := s) (u := s.setPpc p) rfl rfl ps p.conditions
theorem Told.ppcSettle (s : State) (p : Ppc) (ps : List Event) : Told s (s.ppcSettle p ps) := by
  unfold State.ppcSettle
  dsimp only
  split
  · exact .ppcQuiet s _ _
  · exact (Told.ppcQuiet s _ _).trans (.deliverCeiling _ _)
theorem Told.ppcEnd (s : State) (p : Ppc) (ps : List Event) : Told s (s.ppcEnd p ps) := by
  unfold State.ppcEnd
  split
  · exact .ppcQuiet s p ps
  · exact .ppcSettle s p ps
theorem Told.gaugeTap (s : State) (x : Slot) (b : List Byte) : Told s (s.gaugeTap x b) := by
  unfold State.gaugeTap
  dsimp only
  split
  · exact .ppcSettle s _ _
  · exact .ppcEnd s _ _
theorem Told.bridgeTap (s : State) (b : List Byte) : Told s (s.bridgeTap b) := by
  unfold State.bridgeTap
  dsimp only
  split
  · exact .refl s
  · split
    · exact .ppcSettle s _ _
    · exact .ppcQuiet s _ _
theorem Told.braceOn (s : State) : Told s s.braceOn := .ppcEnd s _ _
theorem Told.braceOff (s : State) : Told s s.braceOff := .ppcEnd s _ _

/-! ### MTM -/

theorem Told.deliverPhase (s : State) (old new : Phase) : Told s (s.deliverPhase old new) := by
  unfold State.deliverPhase
  dsimp only
  split
  · exact .refl s
  · split
    · exact (Told.braceOn s).trans (.of_same (by simp) (by simp) (by simp))
    · split
      · exact ((Told.braceOff s).trans (.freezeOff _)).trans (.of_same rfl rfl rfl)
      · exact .of_same rfl rfl rfl
theorem Told.mtmEnd (s : State) (r : Motion) : Told s (s.mtmEnd r) :=
  (Told.raise_at (s := s) (u := s.setMtm r.mtm) rfl rfl r.pulses [(.motionBlind, !r.mtm.live)]).trans (.deliverPhase _ _ _)
theorem Told.accelTap (s : State) (i : Nat) (b : List Byte) : Told s (s.accelTap i b) := .mtmEnd s _

/-! ### Samples -/

theorem Told.tapDeliver (s : State) (r : TapRole) (i : Nat) (x : Sample) : Told s (s.tapDeliver r i x) := by
  unfold State.tapDeliver
  split
  · exact .refl s
  · split
    · exact .raise s _ _
    · cases r with
      | noTap => exact .refl s
      | accel => exact .accelTap s i _
      | lightFront => exact .lightSample s _ _
      | lightTop => exact .lightSample s _ _
      | gaugeA => exact .gaugeTap s _ _
      | gaugeB => exact .gaugeTap s _ _
      | bridge => exact .bridgeTap s _

theorem Told.placeSample (s : State) (x : Sample) : Told s (s.placeSample x) :=
  .of_transmit (by simp) (s.placeSample_lki x) rfl rfl
theorem Told.editEntry (s : State) (i : Nat) (g : RouteEntry → RouteEntry) : Told s (s.editEntry i g) :=
  .of_same rfl rfl rfl
theorem Told.editPort (s : State) (p : PortId) (g : FieldPort → FieldPort) : Told s (s.editPort p g) :=
  .of_same rfl rfl rfl
theorem Told.offer (s : State) (i : Nat) (x : Sample) : Told s (s.offer i x) := by
  unfold State.offer
  split
  · exact (Told.editEntry s i _).trans (.placeSample _ x)
  · exact (Told.editEntry s i _).trans (.raise _ _ _)
theorem Told.northbound (s : State) (i : Nat) (e : RouteEntry) (x : Sample) : Told s (s.northbound i e x) := by
  unfold State.northbound
  split
  · exact .offer s i x
  · exact .editEntry s i _
  · split
    · exact (Told.offer s i x).trans (.editEntry _ i _)
    · exact (Told.editEntry s i _).trans (.editEntry _ i _)

end Sys2Proof.Machine
end

section
/-! The routing of a good sample (R2 to R7, R13): what the northbound path and the tap delivery leave of each block. -/

namespace Sys2Proof.Machine

/-! ### The tap delivery -/

@[simp] theorem State.deliverPhase_waiting (s : State) (old new : Phase) :
    (s.deliverPhase old new).rqh.waiting = s.rqh.waiting := by
  unfold State.deliverPhase
  dsimp only
  split
  · rfl
  · split
    · simp [Rqh.waiting]
    · split
      · simp [Rqh.waiting]
      · rfl

@[simp] theorem State.tapDeliver_waiting (s : State) (r : TapRole) (i : Nat) (x : Sample) :
    (s.tapDeliver r i x).rqh.waiting = s.rqh.waiting := by
  unfold State.tapDeliver
  split
  · rfl
  · split
    · simp
    · cases r <;> simp [State.accelTap, State.mtmEnd]

/-! ### The northbound path -/

theorem modify_of_getElem? {α : Type} {l : List α} {i : Nat} {a : α} (g : α → α) (h : l[i]? = some a) :
    l.modify i g = l.set i (g a) := by
  simp [List.modify_eq_set_getElem?, h]

/-- The sample is placed: it is offered and the sample queue has room (R3). -/
def State.places (s : State) (i : Nat) (e : RouteEntry) : Bool := s.srt.offers i e && decide (s.lki.samples.length < 32)

theorem Lki.sampleRoom_iff (l : Lki) : l.sampleRoom = decide (l.samples.length < 32) := rfl

theorem State.editEntry_srt (s : State) (i : Nat) (g : RouteEntry → RouteEntry) :
    (s.editEntry i g).srt = { s.srt with table := s.srt.table.modify i g } := rfl

/-- The decimation phase advances: DECIMATE is in force (R4, R19). -/
def Srt.advances (r : Srt) (i : Nat) (e : RouteEntry) : Bool :=
  decide (r.overrideEntry ≠ some i ∧ e.action = .decimate)

/-- One counter of the entry counts (R3 to R5). -/
def RouteEntry.tally (placed : Bool) (e : RouteEntry) : RouteEntry :=
  if placed then { e with passed := satInc e.passed } else { e with withheld := satInc e.withheld }

/-- The entry after its sample (R3 to R5, R13). -/
def RouteEntry.counted (e : RouteEntry) (placed advances : Bool) : RouteEntry :=
  (if advances then RouteEntry.advance else id) (e.tally placed)

/-- The counted entry, field by field. -/
theorem RouteEntry.counted_eq (e : RouteEntry) (placed advances : Bool) : e.counted placed advances = { e with
    passed := if placed then satInc e.passed else e.passed
    withheld := if placed then e.withheld else satInc e.withheld
    phase := if advances then (if e.phase + 1 < e.factor then e.phase + 1 else 0) else e.phase } := by
  cases placed <;> cases advances <;> rfl

theorem State.editEntry_id (s : State) (i : Nat) : s.editEntry i id = s := by
  have : s.srt.table.modify i id = s.srt.table := List.modify_id ..
  simp only [State.editEntry, this]; rfl

/-- The northbound path is an offer or a withholding, then under DECIMATE the advance of the phase. -/
theorem State.northbound_eq (s : State) (i : Nat) (e : RouteEntry) (x : Sample) :
    s.northbound i e x = (if s.srt.offers i e then s.offer i x else s.withhold i).editEntry i
      (if s.srt.advances i e then RouteEntry.advance else id) := by
  unfold State.northbound Srt.inForce Srt.offers Srt.advances
  by_cases ho : s.srt.overrideEntry = some i
  · simp [ho, State.editEntry_id]
  · cases ha : e.action <;> simp [ho, State.editEntry_id]

/-- SRT after an offer or a withholding: one counter of the entry counts (R3 to R5). -/
theorem State.offer_or_withhold_srt (s : State) (i : Nat) (e : RouteEntry) (x : Sample) :
    (if s.srt.offers i e then s.offer i x else s.withhold i).srt
      = { s.srt with table := s.srt.table.modify i (RouteEntry.tally (s.places i e)) } := by
  unfold State.places
  cases s.srt.offers i e with
  | false => rfl
  | true =>
    rw [if_pos rfl, State.offer_srt]
    rfl

/-- SRT after the northbound path: the entry alone is counted (R3 to R5, R13). -/
theorem State.northbound_srt (s : State) (i : Nat) (e : RouteEntry) (x : Sample) (he : s.srt.table[i]? = some e) :
    (s.northbound i e x).srt
      = { s.srt with table := s.srt.table.set i (e.counted (s.places i e) (s.srt.advances i e)) } := by
  have hset : ∀ a : RouteEntry, (s.srt.table.set i a)[i]? = some a := fun a =>
    List.getElem?_set_self (List.getElem?_eq_some_iff.1 he).1
  rw [State.northbound_eq, State.editEntry_srt, State.offer_or_withhold_srt, modify_of_getElem? _ he, modify_of_getElem? _ (hset _), List.set_set]
  rfl

/-- LKI after the northbound path: the sample is placed at the tail and the transmitter takes what it may; or an offered
sample raises SAMPLE_OVERFLOW; or nothing happens (R3 to R5). -/
theorem State.northbound_cases (s : State) (i : Nat) (e : RouteEntry) (x : Sample) :
    (s.places i e = true ∧ (s.northbound i e x).lki = { s.lki with samples := s.lki.samples ++ [x] }.transmit
        ∧ (s.northbound i e x).ntu = s.ntu)
      ∨ (s.srt.offers i e = true ∧ 32 ≤ s.lki.samples.length ∧ ∃ g h, s.northbound i e x
          = (((s.editEntry i g).raise [.sampleOverflow] []).editEntry i h))
      ∨ (s.srt.offers i e = false ∧ (s.northbound i e x).lki = s.lki ∧ (s.northbound i e x).ntu = s.ntu) := by
  rw [State.northbound_eq]
  cases ho : s.srt.offers i e with
  | false => exact .inr (.inr ⟨rfl, rfl, rfl⟩)
  | true =>
    rw [if_pos rfl, State.offer]
    by_cases hr : s.lki.samples.length < 32
    · refine .inl ⟨by simp [State.places, ho, hr], ?_, ?_⟩ <;> simp [Lki.sampleRoom_iff, hr]
    · refine .inr (.inl ⟨rfl, not_lt.1 hr, ?_⟩)
      rw [if_neg (by simpa [Lki.sampleRoom_iff] using hr)]
      exact ⟨_, _, rfl⟩

/-- What the northbound path leaves of LKI (R3, R166). -/
theorem State.northbound_lki (s : State) (i : Nat) (e : RouteEntry) (x : Sample) :
    (s.northbound i e x).lki.ports = s.lki.ports ∧ (s.northbound i e x).lki.replyTrail = s.lki.replyTrail
      ∧ (s.northbound i e x).lki.linkErrors = s.lki.linkErrors ∧ (s.northbound i e x).lki.regime = s.lki.regime
      ∧ (s.lki.sending.isSome = true → (s.northbound i e x).lki.samples
          = s.lki.samples ++ if s.places i e then [x] else []) := by
  rcases s.northbound_cases i e x with ⟨hp, hl, _⟩ | ⟨_, hr, g, h, hl⟩ | ⟨ho, hl, _⟩
  · rw [hl]
    refine ⟨by simp, by simp; rfl, by simp, by simp, fun hs => ?_⟩
    rw [Lki.transmit_of_sending { s.lki with samples := s.lki.samples ++ [x] } hs, hp]; rfl
  · have hp : s.places i e = false := by simp [State.places, hr]
    rw [hl, hp]
    simp
  · have hp : s.places i e = false := by simp [State.places, ho]
    rw [hl, hp]
    simp

/-! ### A good frame -/

/-- The state in which a good frame's sample reaches SRT: the receiver hunts again (R169). -/
def State.hunted (s : State) (p : PortId) : State := s.editPort p fun y => { y with rx := .hunting }

theorem State.receivePort_matched (s : State) (p : PortId) (f : WireFrame) (i : Nat) (e : RouteEntry)
    (hf : portFrameGood f = true) (hr : s.restartGranted = false) (he : s.srt.entryFor (sampleOf f.body).source i e) :
    s.receivePort p f = ((s.hunted p).northbound i e (sampleOf f.body)).tapDeliver e.tap i (sampleOf f.body) := by
  obtain ⟨hm, hi⟩ := (Srt.entryFor_iff _ _ _ _).1 he
  rw [State.receivePort, if_pos hf, State.finishRestart_none s hr]
  exact State.routeSample_matched (s.hunted p) _ i e hm hi

theorem State.receivePort_unmatched (s : State) (p : PortId) (f : WireFrame) (hf : portFrameGood f = true)
    (hr : s.restartGranted = false) (he : s.srt.noEntry (sampleOf f.body).source) :
    s.receivePort p f = (s.hunted p).unmatchedSample (sampleOf f.body) := by
  rw [State.receivePort, if_pos hf, State.finishRestart_none s hr]
  exact State.routeSample_unmatched (s.hunted p) _ ((Srt.noEntry_iff _ _).1 he)

/-- An idle transmitter of a sound link takes a placed sample at once (R166). -/
theorem Lki.transmit_sample (l : Lki) (x : Sample) (h1 : l.sending = none) (h2 : l.notice = none) (h3 : l.stream = [])
    (h4 : l.samples = []) : ({ l with samples := l.samples ++ [x] } : Lki).transmit.sending = some (.sample x) := by
  simp [Lki.transmit, h1, h2, h3, h4]

/-- Settles O18: the northbound path counts and places (`northbound_srt`, `northbound_cases`); the tap delivery after it keeps
what the path left. -/
theorem matchedSampleIsCounted : Obligations.MatchedSampleIsCounted := by
  unfold Obligations.MatchedSampleIsCounted
  intro p f s i e hf hr he
  have hi : (s.hunted p).srt.table[i]? = some e := ((Srt.entryFor_iff _ _ _ _).1 he).2
  have hsrt := (s.hunted p).northbound_srt i e (sampleOf f.body) hi
  have hpl : (s.hunted p).places i e = (s.srt.offers i e && decide (s.lki.samples.length < 32)) := rfl
  obtain ⟨hports, htrail, herr, hreg, hsamp⟩ := (s.hunted p).northbound_lki i e (sampleOf f.body)
  set u := (s.hunted p).northbound i e (sampleOf f.body) with hu
  have htap := u.tapDeliver_onlyNotice e.tap i (sampleOf f.body)
  have htold := Told.tapDeliver u e.tap i (sampleOf f.body)
  have htsrt := u.tapDeliver_srt e.tap i (sampleOf f.body)
  refine ⟨_, congrArg Host.Outcome.next (s.receivePort_matched p f i e hf hr he), ?_, by rw [htsrt, hsrt]; rfl,
    by rw [htsrt, hsrt]; rfl, by rw [htsrt, hsrt]; rfl, fun hs => ?_, fun hs hq ho => ?_, fun hlen ho hfull => ?_, ?_, ?_, ?_, ?_,
    ?_, ?_⟩
  · rw [htsrt, hsrt, RouteEntry.counted_eq, hpl]
    simp [Srt.advances, State.hunted]
  · rw [Lki.onlyNotice_samples htap, hsamp hs, hpl]; rfl
  · obtain ⟨_, _, _, _, _, hidle, _⟩ := hq
    obtain ⟨hn, hst, hsm⟩ := hidle hs
    rcases (s.hunted p).northbound_cases i e (sampleOf f.body) with ⟨_, hl, _⟩ | ⟨_, hfull, _⟩ | ⟨hno, _⟩
    · have hsend := Lki.transmit_sample (s.hunted p).lki (sampleOf f.body) hs hn hst hsm
      rw [← hl, ← hu] at hsend
      rw [htold.sending (by rw [hsend]; rfl), hsend]
    · have : (s.hunted p).lki.samples.length = 0 := by simp [State.hunted, State.editPort, hsm]
      omega
    · exact absurd (ho.symm.trans hno) (by simp)
  · rcases (s.hunted p).northbound_cases i e (sampleOf f.body) with ⟨hp, _⟩ | ⟨_, _, g, h, hl⟩ | ⟨hno, _⟩
    · rw [hpl, ho] at hp; simp at hp; omega
    · refine Told.occurred_of_pulse ((s.hunted p).editEntry i g) [] (.of_same rfl rfl rfl) hlen
        (List.mem_singleton_self _) (Told.trans ?_ htold)
      rw [hu, hl]
      exact .editEntry _ i h
    · exact absurd (ho.symm.trans hno) (by simp)
  · rw [Lki.onlyNotice_ports htap, hports]; rfl
  · rw [State.tapDeliver_waiting, State.northbound_waiting]; rfl
  · rw [Lki.onlyNotice_replyTrail htap, htrail]; rfl
  · rw [Lki.onlyNotice_linkErrors htap, herr]; rfl
  · rw [Lki.onlyNotice_regime htap, hreg]; rfl
  · rw [State.tapDeliver_pending, State.northbound_pending]; rfl

/-! ### An unmatched sample (R7) -/

/-- An unmatched sample is placed, overflows the full queue, or is counted alone (R7). -/
theorem State.unmatchedSample_cases (s : State) (x : Sample) :
    (s.srt.defaultRoute = true ∧ s.lki.samples.length < 32 ∧ s.unmatchedSample x = s.placeSample x)
      ∨ (s.srt.defaultRoute = true ∧ 32 ≤ s.lki.samples.length ∧ s.unmatchedSample x
          = (s.setSrt { s.srt with unmatched := satInc s.srt.unmatched }).raise [.sampleOverflow] [])
      ∨ (s.srt.defaultRoute = false
          ∧ s.unmatchedSample x = s.setSrt { s.srt with unmatched := satInc s.srt.unmatched }) := by
  unfold State.unmatchedSample
  cases hd : s.srt.defaultRoute with
  | false => exact .inr (.inr ⟨rfl, by simp⟩)
  | true =>
    by_cases hr : s.lki.samples.length < 32
    · exact .inl ⟨rfl, hr, by simp [Lki.sampleRoom_iff, hr]⟩
    · exact .inr (.inl ⟨rfl, not_lt.1 hr, by simp [Lki.sampleRoom_iff, hr]⟩)

/-- Settles O19: the three cases of `unmatchedSample_cases`. -/
theorem unmatchedSampleIsCounted : Obligations.UnmatchedSampleIsCounted := by
  unfold Obligations.UnmatchedSampleIsCounted
  intro p f s hf hr he
  have hcases := (s.hunted p).unmatchedSample_cases (sampleOf f.body)
  refine ⟨_, congrArg Host.Outcome.next (s.receivePort_unmatched p f hf hr he), (s.hunted p).unmatchedSample_srt _,
    fun hs => ?_, fun hs hq hd => ?_, fun hd hfull hlen => ?_, fun h => ?_, by simp [State.hunted], by simp [State.hunted],
    by simp [State.hunted], by simp [State.hunted], by simp [State.hunted]⟩
  · rcases hcases with ⟨hd, hl, h⟩ | ⟨hd, hl, h⟩ | ⟨hd, h⟩
    · rw [h, State.placeSample_lki, Lki.transmit_of_sending { (s.hunted p).lki with samples := _ } hs]
      simp_all [State.hunted, State.editPort]
    · rw [h]; simp_all [State.hunted, State.editPort]
    · rw [h]; simp_all [State.hunted, State.editPort]
  · obtain ⟨_, _, _, _, _, hidle, _⟩ := hq
    obtain ⟨hn, hst, hsm⟩ := hidle hs
    rcases hcases with ⟨_, _, h⟩ | ⟨_, hl, _⟩ | ⟨hd', _⟩
    · rw [h, State.placeSample_lki]
      exact Lki.transmit_sample (s.hunted p).lki _ hs hn hst hsm
    · simp [State.hunted, State.editPort, hsm] at hl
    · exact absurd (hd.symm.trans hd') (by simp)
  · rcases hcases with ⟨_, hl, _⟩ | ⟨_, _, h⟩ | ⟨hd', _⟩
    · exact absurd hl (not_lt.2 hfull)
    · rw [h]
      exact ⟨Told.occurred_of_pulse ((s.hunted p).setSrt _) [] (.of_same rfl rfl rfl) hlen (List.mem_singleton_self _)
        (.refl _), State.raise_onlyEvents ((s.hunted p).setSrt _) _ _⟩
    · exact absurd (hd.symm.trans hd') (by simp)
  · rcases hcases with ⟨_, _, h'⟩ | ⟨hd, hl, _⟩ | ⟨_, h'⟩
    · rw [h', State.placeSample_ntu]; rfl
    · exact absurd h (by rintro (h | h); exacts [absurd (h.symm.trans hd) (by simp), absurd h (not_lt.2 hl)])
    · rw [h']; rfl

end Sys2Proof.Machine
end

section
/-! The route table over every step (R1, R4, R10, R12 to R14, R19, R21). -/

namespace Sys2Proof.Machine

/-! ### What keeps a sound table sound -/

theorem satInc_le {n : Nat} (h : n ≤ 65535) : satInc n ≤ 65535 := by
  unfold satInc; split <;> omega

/-- A count and an advance keep an entry sound (R3, R4). -/
theorem RouteEntry.counted_sound {e : RouteEntry} (h : e.sound) (placed adv : Bool) (ha : adv = true → e.action = .decimate) :
    (e.counted placed adv).sound := by
  obtain ⟨hf, hd, hz, hp, hw⟩ := h
  rw [RouteEntry.counted_eq]
  refine ⟨hf, fun hdec => ?_, fun hdec => ?_, ?_, ?_⟩
  · have := hd hdec
    dsimp only
    split
    · split <;> omega
    · exact this
  · have hadv : adv = false := by simpa using fun h => hdec (ha h)
    simpa [hadv] using hz hdec
  · dsimp only; split
    · exact satInc_le hp
    · exact hp
  · dsimp only; split
    · exact hw
    · exact satInc_le hw

theorem RouteEntry.flush_sound {e : RouteEntry} (h : e.sound) : e.flush.sound := by
  obtain ⟨hf, hd, hz, hp, hw⟩ := h
  unfold RouteEntry.flush
  split
  · exact ⟨hf, hd, hz, hp, hw⟩
  · exact ⟨hf, fun hdec => Nat.lt_of_le_of_lt (Nat.zero_le _) (hd hdec), fun _ => rfl, Nat.zero_le _, Nat.zero_le _⟩

/-- The entry that ROUTE_WRITE stores is sound (R10). -/
theorem RouteEntry.ofArgs_sound {a : List Byte} {e : RouteEntry} (h : RouteEntry.ofArgs a = some e) : e.sound := by
  unfold RouteEntry.ofArgs at h
  split at h
  · next act _ _ _ _ _ =>
    split at h
    · next hf =>
      obtain rfl := Option.some.inj h
      refine ⟨hf, fun hdec => ?_, fun _ => rfl, Nat.zero_le _, Nat.zero_le _⟩
      have hcode := (Action.factorOk_iff _ _).1 hf
      have : act.code = 1 := by rw [show act = .decimate from hdec]; rfl
      exact Nat.lt_of_lt_of_le Nat.zero_lt_two (hcode.2 this).1
    · cases h
  · cases h

theorem Srt.factory_sound : Srt.factory.sound := by
  refine ⟨rfl, ?_, Nat.zero_le _, rfl, fun i h => nomatch h⟩
  unfold RouteEntry.sound
  decide

/-- The override alone changes, to none or to a valid entry (R19 to R21). -/
theorem Srt.sound_withOverride {r : Srt} (h : r.sound) (o : Option Nat)
    (ho : ∀ i, o = some i → (r.table[i]?).any (·.valid) = true) : ({ r with overrideEntry := o } : Srt).sound := by
  obtain ⟨h1, h2, h3, h4, _⟩ := h
  exact ⟨h1, h2, h3, h4, ho⟩

/-- The table changes to sound entries that keep an overridden entry valid. -/
theorem Srt.sound_withTable {r : Srt} (h : r.sound) (table : List RouteEntry) (hl : table.length = r.table.length)
    (he : ∀ e ∈ table, e.sound)
    (ho : ∀ i, r.overrideEntry = some i → (r.table[i]?).any (·.valid) = true → (table[i]?).any (·.valid) = true) :
    ({ r with table := table } : Srt).sound := by
  obtain ⟨h1, _, h3, h4, h5⟩ := h
  exact ⟨hl.trans h1, he, h3, h4, fun i hi => ho i hi (h5 i hi)⟩

/-- One entry is replaced by a sound one that is valid if it was. -/
theorem Srt.sound_set {r : Srt} (h : r.sound) (i : Nat) (e : RouteEntry) (he : e.sound)
    (hv : r.overrideEntry = some i → (r.table[i]?).any (·.valid) = true → e.valid = true) :
    ({ r with table := r.table.set i e } : Srt).sound := by
  refine Srt.sound_withTable h _ (List.length_set ..) (fun d hd => ?_) fun j hj hval => ?_
  · rcases List.mem_or_eq_of_mem_set hd with hd | rfl
    · exact h.2.1 d hd
    · exact he
  · by_cases hij : i = j
    · subst hij
      have hlt : i < r.table.length := by
        by_contra hlt
        simp [List.getElem?_eq_none (not_lt.1 hlt)] at hval
      simp [List.getElem?_set_self hlt, hv hj hval]
    · rwa [List.getElem?_set_ne hij]

/-! ### The events that reach SRT -/

/-- The override after a delivery of the phase: it stays, ends, or begins on a valid entry (R19, R20). -/
theorem State.deliverPhase_override (s : State) (old new : Phase) :
    (s.deliverPhase old new).srt.overrideEntry = s.srt.overrideEntry
      ∨ (s.deliverPhase old new).srt.overrideEntry = none
      ∨ ∃ i, (s.deliverPhase old new).srt.overrideEntry = some i ∧ (s.srt.table[i]?).any (·.valid) = true := by
  unfold State.deliverPhase
  dsimp only
  split
  · exact .inl rfl
  · split
    · rcases s.braceOn.freezeOn.overrideOn_entry with h | ⟨i, _, hv, h⟩
      · exact .inl (by simpa using h)
      · exact .inr (.inr ⟨i, h, by simpa using hv⟩)
    · split
      · exact .inr (.inl rfl)
      · exact .inl rfl

theorem State.deliverPhase_sound {s : State} (h : s.srt.sound) (old new : Phase) : (s.deliverPhase old new).srt.sound := by
  rw [State.deliverPhase_srt]
  refine Srt.sound_withOverride h _ fun i hi => ?_
  rcases s.deliverPhase_override old new with ho | ho | ⟨j, ho, hv⟩
  · exact h.2.2.2.2 i (ho ▸ hi)
  · rw [ho] at hi; cases hi
  · obtain rfl := Option.some.inj (ho.symm.trans hi)
    exact hv

theorem State.mtmEnd_sound {s : State} (h : s.srt.sound) (r : Motion) : (s.mtmEnd r).srt.sound :=
  State.deliverPhase_sound (by simpa using h) _ _

theorem State.tapDeliver_sound {s : State} (h : s.srt.sound) (r : TapRole) (i : Nat) (x : Sample) :
    (s.tapDeliver r i x).srt.sound := by
  unfold State.tapDeliver
  split
  · exact h
  · split
    · simpa using h
    · cases r with
      | accel => exact State.mtmEnd_sound h _
      | noTap => exact h
      | lightFront | lightTop | gaugeA | gaugeB | bridge => simpa using h

theorem State.northbound_sound {s : State} (h : s.srt.sound) {i : Nat} {e : RouteEntry} (he : s.srt.table[i]? = some e)
    (x : Sample) : (s.northbound i e x).srt.sound := by
  rw [State.northbound_srt s i e x he]
  refine Srt.sound_set h i _ (RouteEntry.counted_sound (h.2.1 e (List.mem_of_getElem? he)) _ _ fun ha => ?_) fun _ hv => ?_
  · exact (of_decide_eq_true ha).2
  · rw [RouteEntry.counted_eq]; simpa [he] using hv

theorem State.unmatchedSample_sound {s : State} (h : s.srt.sound) (x : Sample) : (s.unmatchedSample x).srt.sound := by
  obtain ⟨h1, h2, h3, h4, h5⟩ := h
  rw [State.unmatchedSample_srt]
  refine ⟨h1, h2, ?_, h4, h5⟩
  dsimp only
  split
  · exact h3
  · exact satInc_le h3

theorem State.routeSample_sound {s : State} (h : s.srt.sound) (x : Sample) : (s.routeSample x).srt.sound := by
  unfold State.routeSample
  split
  · exact State.unmatchedSample_sound h x
  · split
    · exact State.unmatchedSample_sound h x
    · next he => exact State.tapDeliver_sound (State.northbound_sound h he x) _ _ _

/-! ### The requests -/

/-- A request leaves SRT as it was or as its owner's event leaves it (R154). -/
theorem State.serve_srt (s : State) (c : RequestCode) (owner : List Byte → State → Answer) :
    (s.serve c owner).srt = s.srt ∨ ∃ a, (s.serve c owner).srt = (owner a s).state.srt := by
  rcases s.serve_cases c owner with h | ⟨r, _, _, h | h | h⟩
  · exact .inl (by rw [h])
  · exact .inl (by rw [h, State.answer_srt])
  · exact .inl (by rw [h, State.answer_srt])
  · exact .inr ⟨r.args, by rw [h, State.answer_srt]⟩

theorem State.serve_sound {s : State} (h : s.srt.sound) (c : RequestCode) (owner : List Byte → State → Answer)
    (ho : ∀ a, (owner a s).state.srt.sound) : (s.serve c owner).srt.sound := by
  rcases s.serve_srt c owner with hs | ⟨a, hs⟩
  · exact hs ▸ h
  · exact hs ▸ ho a

/-- The owner's event leaves SRT alone. -/
def KeepsSrt (owner : List Byte → State → Answer) : Prop := ∀ a s, (owner a s).state.srt = s.srt

theorem KeepsSrt.serve {owner : List Byte → State → Answer} (h : KeepsSrt owner) (s : State) (c : RequestCode) :
    (s.serve c owner).srt = s.srt := by
  rcases s.serve_srt c owner with hs | ⟨a, hs⟩
  · exact hs
  · rw [hs, h a s]

section
variable (a : List Byte) (s : State)
@[simp] theorem Answer.refuse_state (st : Status) : (Answer.refuse s st).state = s := rfl
@[simp] theorem Answer.reason_state (r : Reason) : (Answer.reason s r).state = s := rfl
@[simp] theorem Answer.ok_state (p : List Byte) : (Answer.ok s p).state = s := rfl
end

theorem packProfileOwner_srt : KeepsSrt packProfileOwner := fun a s => by
  unfold packProfileOwner; dsimp only; split <;> simp
theorem packReleaseOwner_srt : KeepsSrt packReleaseOwner := fun a s => by
  unfold packReleaseOwner
  split
  · rfl
  · dsimp only; split <;> simp
theorem powerSetOwner_srt : KeepsSrt powerSetOwner := fun a s => by
  unfold powerSetOwner; dsimp only; split <;> simp
theorem bridgeSetOwner_srt : KeepsSrt bridgeSetOwner := fun a s => by
  unfold bridgeSetOwner; dsimp only; split <;> simp
theorem lightSetOwner_srt : KeepsSrt lightSetOwner := fun a s => by
  unfold lightSetOwner; dsimp only; split <;> simp
theorem curveHeaderOwner_srt : KeepsSrt curveHeaderOwner := fun a s => by
  unfold curveHeaderOwner; dsimp only; split <;> simp
theorem curvePointOwner_srt : KeepsSrt curvePointOwner := fun a s => by
  unfold curvePointOwner; dsimp only; split <;> simp
theorem blBiasOwner_srt : KeepsSrt blBiasOwner := fun a s => by simp [blBiasOwner]
theorem blForceOwner_srt : KeepsSrt blForceOwner := fun a s => by simp [blForceOwner]
theorem blReleaseOwner_srt : KeepsSrt blReleaseOwner := fun a s => by
  unfold blReleaseOwner; dsimp only; split <;> simp
theorem motionSetOwner_srt : KeepsSrt motionSetOwner := fun a s => by
  unfold motionSetOwner; dsimp only; split <;> simp
theorem dropReadOwner_srt : KeepsSrt dropReadOwner := fun a s => by
  unfold dropReadOwner; split <;> rfl
theorem dropReleaseOwner_srt : KeepsSrt dropReleaseOwner := fun a s => by
  unfold dropReleaseOwner
  split
  · rfl
  · dsimp only; split <;> simp
theorem eventConfigOwner_srt : KeepsSrt eventConfigOwner := fun a s => by
  unfold eventConfigOwner; dsimp only; repeat' split
  all_goals simp
theorem noticeEnableOwner_srt : KeepsSrt noticeEnableOwner := fun a s => by
  unfold noticeEnableOwner; dsimp only; repeat' split
  all_goals simp
theorem countReadOwner_srt : KeepsSrt countReadOwner := fun a s => by
  unfold countReadOwner; dsimp only; repeat' split
  all_goals simp
theorem routeReadOwner_srt : KeepsSrt routeReadOwner := fun a s => by
  unfold routeReadOwner; dsimp only; split <;> rfl
theorem passOwner_srt : KeepsSrt passOwner := fun a s => by
  unfold passOwner State.offerPort; dsimp only; repeat' split
  all_goals simp

theorem routeWriteOwner_sound {s : State} (h : s.srt.sound) (a : List Byte) : (routeWriteOwner a s).state.srt.sound := by
  unfold routeWriteOwner
  dsimp only
  split
  · exact h
  · split
    · exact h
    · next e he =>
      rw [Answer.ok_state, State.collide_srt]
      by_cases ho : s.srt.overrideEntry = some (u8 a 0)
      · have hs := Srt.sound_set (Srt.sound_withOverride h none nofun) (u8 a 0) e (RouteEntry.ofArgs_sound he) nofun
        rw [ho, beq_self_eq_true]
        exact hs
      · have hs := Srt.sound_set h (u8 a 0) e (RouteEntry.ofArgs_sound he) fun h => absurd h ho
        rw [beq_eq_false_iff_ne.2 ho]
        exact hs

/-- A flush keeps a table sound: the override stays only on a pinned entry, which the flush leaves alone (R12, R21). -/
theorem routeFlushOwner_sound {s : State} (h : s.srt.sound) (a : List Byte) : (routeFlushOwner a s).state.srt.sound := by
  have hflush : ∀ r : Srt, r.sound → r.flushHits = false → ({ r with table := r.table.map RouteEntry.flush } : Srt).sound := by
    intro r hr hhit
    refine Srt.sound_withTable hr _ (List.length_map ..) (fun e he => ?_) fun i hi hv => ?_
    · obtain ⟨d, hd, rfl⟩ := List.mem_map.1 he
      exact RouteEntry.flush_sound (hr.2.1 d hd)
    · cases hd : r.table[i]? with
      | none => simp [hd] at hv
      | some d =>
        have hpin : d.pinned = true := by simpa [Srt.flushHits_some hi hd] using hhit
        simpa [hd, RouteEntry.flush, hpin] using hv
  rw [routeFlushOwner_eq, State.collide_srt]
  cases hhit : s.srt.flushHits
  · exact hflush s.srt h hhit
  · exact hflush { s.srt with overrideEntry := none } (Srt.sound_withOverride h none nofun) rfl

theorem countSnapshotOwner_sound {s : State} (h : s.srt.sound) (a : List Byte) :
    (countSnapshotOwner a s).state.srt.sound := by
  obtain ⟨h1, h2, h3, h4, h5⟩ := h
  have hhold : ({ s.srt with holding := s.liveCounters } : Srt).sound := ⟨h1, h2, h3, s.liveCounters_length h1, h5⟩
  unfold countSnapshotOwner
  rw [Answer.ok_state]
  split
  · refine ⟨by simpa [Srt.clearCounters] using h1, fun e he => ?_, Nat.zero_le _, s.liveCounters_length h1, fun i hi => ?_⟩
    · obtain ⟨d, hd, rfl⟩ := List.mem_map.1 he
      obtain ⟨hf, hdec, hz, _, _⟩ := h2 d hd
      exact ⟨hf, hdec, hz, Nat.zero_le _, Nat.zero_le _⟩
    · simpa [Srt.clearCounters, Option.any_map, Function.comp_def] using h5 i hi
  · exact hhold

theorem restartOwner_sound {s : State} (h : s.srt.sound) (a : List Byte) : (restartOwner a s).state.srt.sound := by
  unfold restartOwner
  split
  · simpa [State.restarted] using Srt.factory_sound
  · exact h

/-! ### Every command -/

theorem State.finishRestart_sound {s : State} (h : s.srt.sound) : s.finishRestart.srt.sound := by
  unfold State.finishRestart
  split
  · exact State.serve_sound h _ _ (restartOwner_sound h)
  · exact h

theorem State.receivePort_sound {s : State} (h : s.srt.sound) (p : PortId) (f : WireFrame) : (s.receivePort p f).srt.sound := by
  unfold State.receivePort
  split
  · exact State.routeSample_sound (s := s.finishRestart.editPort p _) (State.finishRestart_sound h) _
  · exact h

/-- The commands whose events reach the route table: the resets, samples, phase changes, and the requests of SRT. -/
def Instr.reachesSrt : Instr → Bool
  | .powerOnReset _ | .sampleFrameReceived .. | .badSampleFrame .. | .accelStaleExpiry | .protectHoldExpiry
  | .routeWrite | .routeFlush | .countSnapshot | .restart => true
  | _ => false

/-- Every other command leaves SRT as it is. -/
theorem exec_keeps_srt {c : Instr} {s t : State} (hc : Instr.reachesSrt c = false) (hx : exec c s = .next t) :
    t.srt = s.srt := by
  cases c with
  | powerOnReset _ | sampleFrameReceived _ _ | badSampleFrame _ _ | accelStaleExpiry | protectHoldExpiry | routeWrite
  | routeFlush | countSnapshot | restart => cases hc
  | requestFrameReceived f | uplinkFrameDiscarded f =>
    obtain rfl := Host.Outcome.next.inj hx
    exact s.receiveUplink_srt f
  | uplinkByteGap | portByteGap _ | transmitComplete | silenceTimeoutExpiry | seating _ | leverRelease _ | dcinOkChange _
  | brPresChange _ | qualTimeoutExpiry _ | releaseConfirmExpiry _ | unlockHoldExpiry _ | transferSettleExpiry
  | lightStaleExpiry _ | holdOffExpiry | leverPress _ =>
    obtain rfl := Host.Outcome.next.inj hx
    split <;> simp
  | uplinkFrameStart | portFrameStart _ | passSendComplete _ | stepExpiry =>
    obtain rfl := Host.Outcome.next.inj hx
    rfl
  | rawInputChange pin _ =>
    obtain rfl := Host.Outcome.next.inj hx
    cases pin <;> rfl
  | presenceLoss _ =>
    obtain rfl := Host.Outcome.next.inj hx
    split
    · rfl
    · dsimp only
      split <;> simp
  | gaugeStaleExpiry _ =>
    obtain rfl := Host.Outcome.next.inj hx
    split
    · rfl
    · split <;> simp
  | swapWindowExpiry =>
    obtain rfl := Host.Outcome.next.inj hx
    split <;> simp
  | identify | linkStatus | powerStatus | curveRead | blStatus | motionStatus | linkSet | eventReadClear =>
    obtain rfl := Host.Outcome.next.inj hx
    exact KeepsSrt.serve (fun _ _ => rfl) s _
  | holdNotices =>
    obtain rfl := Host.Outcome.next.inj hx
    exact KeepsSrt.serve (fun a s => s.holdNotices_srt _) s _
  | packStatus =>
    obtain rfl := Host.Outcome.next.inj hx
    exact KeepsSrt.serve (fun a s => by split <;> rfl) s _
  | routeRead => exact Host.Outcome.next.inj hx ▸ routeReadOwner_srt.serve s _
  | countRead => exact Host.Outcome.next.inj hx ▸ countReadOwner_srt.serve s _
  | pass => exact Host.Outcome.next.inj hx ▸ passOwner_srt.serve s _
  | packProfileWrite => exact Host.Outcome.next.inj hx ▸ packProfileOwner_srt.serve s _
  | packRelease => exact Host.Outcome.next.inj hx ▸ packReleaseOwner_srt.serve s _
  | powerSet => exact Host.Outcome.next.inj hx ▸ powerSetOwner_srt.serve s _
  | bridgeSet => exact Host.Outcome.next.inj hx ▸ bridgeSetOwner_srt.serve s _
  | lightSet => exact Host.Outcome.next.inj hx ▸ lightSetOwner_srt.serve s _
  | curveWriteHeader => exact Host.Outcome.next.inj hx ▸ curveHeaderOwner_srt.serve s _
  | curveWritePoint => exact Host.Outcome.next.inj hx ▸ curvePointOwner_srt.serve s _
  | blBias => exact Host.Outcome.next.inj hx ▸ blBiasOwner_srt.serve s _
  | blForce => exact Host.Outcome.next.inj hx ▸ blForceOwner_srt.serve s _
  | blRelease => exact Host.Outcome.next.inj hx ▸ blReleaseOwner_srt.serve s _
  | motionSet => exact Host.Outcome.next.inj hx ▸ motionSetOwner_srt.serve s _
  | dropRead => exact Host.Outcome.next.inj hx ▸ dropReadOwner_srt.serve s _
  | dropRelease => exact Host.Outcome.next.inj hx ▸ dropReleaseOwner_srt.serve s _
  | eventConfig => exact Host.Outcome.next.inj hx ▸ eventConfigOwner_srt.serve s _
  | noticeEnable => exact Host.Outcome.next.inj hx ▸ noticeEnableOwner_srt.serve s _
  | unknownRequest =>
    obtain rfl := Host.Outcome.next.inj hx
    split
    · split <;> simp
    · rfl

/-- Every command keeps a sound table sound. -/
theorem exec_sound {c : Instr} {s t : State} (h : s.srt.sound) (hx : exec c s = .next t) : t.srt.sound := by
  cases hc : Instr.reachesSrt c with
  | false => exact exec_keeps_srt hc hx ▸ h
  | true =>
    cases c with
    | powerOnReset pins =>
      obtain rfl := Host.Outcome.next.inj hx
      simpa [State.powerOn] using Srt.factory_sound
    | sampleFrameReceived p f | badSampleFrame p f =>
      obtain rfl := Host.Outcome.next.inj hx
      exact State.receivePort_sound h p f
    | accelStaleExpiry | protectHoldExpiry =>
      obtain rfl := Host.Outcome.next.inj hx
      split
      · exact State.mtmEnd_sound h _
      · exact h
    | routeWrite => exact Host.Outcome.next.inj hx ▸ State.serve_sound h _ _ (routeWriteOwner_sound h)
    | routeFlush => exact Host.Outcome.next.inj hx ▸ State.serve_sound h _ _ (routeFlushOwner_sound h)
    | countSnapshot => exact Host.Outcome.next.inj hx ▸ State.serve_sound h _ _ (countSnapshotOwner_sound h)
    | restart => exact Host.Outcome.next.inj hx ▸ State.serve_sound h _ _ (restartOwner_sound h)
    | _ => cases hc

/-- Settles O9: every command keeps the table sound (`exec_sound`), and a millisecond does not touch it. -/
theorem routeTableStaysSound : Obligations.RouteTableStaysSound := by
  unfold Obligations.RouteTableStaysSound
  intro s t h hstep
  unfold step at hstep
  split at hstep
  · next c rest _ =>
    have hrest : (s.setPending rest).srt.sound := by rwa [State.setPending_srt]
    exact exec_sound hrest hstep
  · split at hstep
    · exact exec_sound h hstep
    · obtain rfl := Host.Outcome.next.inj hstep
      exact h

end Sys2Proof.Machine
end

section
/-! The conditions that the blocks deliver (R139): when a condition rises, when its event follows it, and what the event table
holds after the two resets (R148, R149). -/

namespace Sys2Proof.Machine

/-! ### Event codes -/

/-- The events in the order of their codes (Table 8-2). -/
def Event.inOrder : List Event :=
  [.packSeated .a, .packSeated .b, .packReady .a, .packReady .b, .packFault .a, .packFault .b, .packLost .a, .packLost .b,
   .packRemoved .a, .packRemoved .b, .swapRefused, .swapReady, .gaugeStale .a, .gaugeStale .b, .dcChange, .bridgeAlone,
   .bridgeLow, .bridgeFault, .bridgeExhausted, .lightLost .front, .lightLost .top, .curveFault, .ceilingCut, .fallStart,
   .dropRecorded, .motionBlind, .routeCollision, .tapMismatch, .sampleOverflow, .linkError, .restarted, .powerOn]

theorem Event.inOrder_code (e : Event) : Event.inOrder[e.code]? = some e := by
  cases e with
  | packSeated x | packReady x | packFault x | packLost x | packRemoved x | gaugeStale x => cases x <;> rfl
  | lightLost r => cases r <;> rfl
  | _ => rfl

/-- A code names one event. -/
theorem Event.code_inj {e f : Event} : e.code = f.code ↔ e = f := by
  refine ⟨fun h => ?_, fun h => h ▸ rfl⟩
  have := e.inOrder_code
  rw [h, f.inOrder_code] at this
  exact (Option.some.inj this).symm

theorem Event.code_mem_map {e : Event} {es : List Event} : e.code ∈ es.map Event.code ↔ e ∈ es := by
  simp [Event.code_inj]

/-! ### Delivered conditions -/

/-- A code occurs with a raising where its event is a pulse, or a delivered condition whose live flag rises (R138, R139). -/
theorem State.mem_raisedCodes (s : State) (ps : List Event) (cs : List (Event × Bool)) (e : Event) :
    e.code ∈ s.raisedCodes ps cs ↔ e ∈ ps ∨ (e, true) ∈ cs ∧ s.ntu.isLive e = false := by
  have hrise : ∀ c : Nat × Bool, c ∈ (cs.map fun (e, v) => (e.code, v)) ∧ (c.2 && !((s.ntu.table[c.1]?).any (·.live))) = true
      ∧ c.1 = e.code ↔ c = (e.code, true) ∧ (e, true) ∈ cs ∧ s.ntu.isLive e = false := by
    rintro ⟨k, v⟩
    simp only [List.mem_map, Prod.mk.injEq, Bool.and_eq_true, Bool.not_eq_true', Ntu.isLive]
    constructor
    · rintro ⟨⟨⟨f, w⟩, hf, hk, hw⟩, ⟨hv, hl⟩, rfl⟩
      obtain rfl := Event.code_inj.1 hk
      dsimp only at hw
      subst hw hv
      exact ⟨⟨rfl, rfl⟩, hf, hl⟩
    · rintro ⟨⟨rfl, rfl⟩, hm, hl⟩
      exact ⟨⟨_, hm, rfl, rfl⟩, ⟨rfl, hl⟩, rfl⟩
  unfold State.raisedCodes Ntu.rising
  rw [List.mem_append, Event.code_mem_map, List.mem_map]
  refine or_congr_right ⟨fun ⟨c, hc, hk⟩ => ?_, fun h => ⟨(e.code, true), ?_, rfl⟩⟩
  · obtain ⟨hm, hl⟩ := List.mem_filter.1 hc
    exact ((hrise c).1 ⟨hm, hl, hk⟩).2
  · obtain ⟨hm, hl, _⟩ := (hrise (e.code, true)).2 ⟨rfl, h⟩
    exact List.mem_filter.2 ⟨hm, hl⟩

/-- What is neither raised nor rises keeps its latched flag. -/
theorem State.raise_latched_eq (s : State) (ps : List Event) (cs : List (Event × Bool)) (e : Event)
    (h : e.code ∉ s.raisedCodes ps cs) : (s.raise ps cs).ntu.isLatched e = s.ntu.isLatched e := by
  unfold Ntu.isLatched
  rw [State.raise_entry]
  cases s.ntu.table[e.code]? <;> simp [h]

/-- The condition of an event is delivered as `v`, by one item of the list. -/
def Delivers (cs : List (Event × Bool)) (e : Event) (v : Bool) : Prop := (e, v) ∈ cs ∧ ∀ c ∈ cs, c.1 = e → c.2 = v

theorem Delivers.lookup {cs : List (Event × Bool)} {e : Event} {v : Bool} (h : Delivers cs e v) :
    (cs.map fun (c : Event × Bool) => (c.1.code, c.2)).lookup e.code = some v := by
  obtain ⟨hm, hu⟩ := h
  induction cs with
  | nil => cases hm
  | cons c rest ih =>
    rw [List.map_cons, List.lookup_cons]
    by_cases hc : c.1 = e
    · simp [hc, hu c (List.mem_cons_self ..) hc]
    · have hne : (e.code == c.1.code) = false := beq_eq_false_iff_ne.2 fun h => hc (Event.code_inj.1 h).symm
      rw [hne]
      refine ih ((List.mem_cons.1 hm).resolve_left fun h => hc (h ▸ rfl)) fun d hd => hu d (List.mem_cons_of_mem _ hd)

/-- A condition that one link of a chain delivers, and that the rest of the chain leaves alone, is followed by its event
(R139). -/
theorem Told.conditionFollows {s u t : State} {es fs ps : List Event} {cs : List (Event × Bool)} {e : Event} {v : Bool}
    (h1 : Told s u) (hes : s.ntu.onlyEvents es u.ntu) (he : e ∉ es) (hd : Delivers cs e v) (hps : e ∉ ps)
    (h2 : Told (u.raise ps cs) t) (hfs : (u.raise ps cs).ntu.onlyEvents fs t.ntu) (hf : e ∉ fs) : ConditionFollows s t e v := by
  intro hlen
  obtain ⟨hl1, hv1⟩ := Ntu.onlyEvents_other hes (mt Event.code_mem_map.1 he)
  obtain ⟨hl2, hv2⟩ := Ntu.onlyEvents_other hfs (mt Event.code_mem_map.1 hf)
  have hlu : u.ntu.table.length = 32 := hes.2.2.1.trans hlen
  refine ⟨by rw [hv2, u.raise_condition ps cs hlu hd.lookup], fun hrise hv => ?_, fun hkeep => ?_⟩
  · refine h1.occurred_of_raise hlen ((u.mem_raisedCodes ps cs e).2 (.inr ⟨hv ▸ hd.1, ?_⟩)) h2
    rw [hv1, hrise]
  · rw [hl2, State.raise_latched_eq, hl1]
    rw [State.mem_raisedCodes, hv1]
    rintro (hp | ⟨hm, hn⟩)
    · exact hps hp
    · rcases hkeep with hk | rfl
      · rw [hk] at hn; cases hn
      · exact absurd (hd.2 _ hm rfl) (by simp)

/-- Where every live flag already shows its condition, no condition rises (R139). -/
theorem Ntu.rising_of_live (n : Ntu) (cs : List (Event × Bool)) (h : ∀ c ∈ cs, n.isLive c.1 = c.2) :
    n.rising (cs.map fun c => (c.1.code, c.2)) = [] := by
  simp only [Ntu.rising, List.map_eq_nil_iff, List.filter_eq_nil_iff]
  intro c hc
  obtain ⟨d, hd, rfl⟩ := List.mem_map.1 hc
  have := h d hd
  unfold Ntu.isLive at this
  simp [this]

/-- Where every live flag already shows its condition, a delivery leaves the flags (R139). -/
theorem Ntu.setLive_of_live (n : Ntu) (cs : List (Event × Bool)) (h : ∀ c ∈ cs, n.isLive c.1 = c.2) :
    n.setLive (cs.map fun c => (c.1.code, c.2)) = n := by
  have htable : (n.setLive (cs.map fun c => (c.1.code, c.2))).table = n.table := by
    apply List.ext_getElem?
    intro k
    rw [Ntu.setLive_entry]
    cases hk : n.table[k]? with
    | none => rfl
    | some e =>
      cases hlook : (cs.map fun (c : Event × Bool) => (c.1.code, c.2)).lookup k with
      | none => rfl
      | some v =>
        obtain ⟨l₁, l₂, hl, _⟩ := List.lookup_eq_some_iff.1 hlook
        have hm : (k, v) ∈ cs.map fun (c : Event × Bool) => (c.1.code, c.2) := by rw [hl]; simp
        obtain ⟨d, hd, hdk⟩ := List.mem_map.1 hm
        obtain ⟨rfl, rfl⟩ := Prod.mk.inj hdk
        have := h d hd
        simp only [Ntu.isLive, hk, Option.any_some] at this
        rw [Option.map_some, ← this]
        rfl
  have : n.setLive (cs.map fun c => (c.1.code, c.2))
      = { n with table := (n.setLive (cs.map fun c => (c.1.code, c.2))).table } := rfl
  rw [this, htable]

/-- Where every live flag already shows its condition, a delivery adds nothing to the pulses (R139). -/
theorem State.raise_pulses_of_live (s : State) (ps : List Event) (cs : List (Event × Bool))
    (h : ∀ c ∈ cs, s.ntu.isLive c.1 = c.2) : s.raise ps cs = s.raise ps [] := by
  have h1 := s.ntu.rising_of_live cs h
  have h2 := s.ntu.setLive_of_live cs h
  have h3 := s.ntu.setLive_of_live [] (by simp)
  unfold State.raise
  dsimp only
  rw [h1, h2]
  rw [List.map_nil] at h3 ⊢
  rw [h3]
  rfl

/-- Where every live flag already shows its condition, a delivery without a pulse changes nothing (R139). -/
theorem State.raise_of_live (s : State) (cs : List (Event × Bool)) (h : ∀ c ∈ cs, s.ntu.isLive c.1 = c.2) :
    s.raise [] cs = s := by
  have hset := s.ntu.setLive_of_live [] (by simp)
  have hoccur : s.ntu.occur [] = s.ntu := by
    have htable : (s.ntu.occur []).table = s.ntu.table := by
      apply List.ext_getElem?
      intro k
      rw [Ntu.occur_entry]
      cases s.ntu.table[k]? <;> rfl
    have : s.ntu.occur [] = { s.ntu with table := (s.ntu.occur []).table } := rfl
    rw [this, htable]
  rw [State.raise_pulses_of_live s [] cs h]
  show s.setNtu ((s.ntu.setLive []).occur []) = s
  rw [List.map_nil] at hset
  rw [hset, hoccur]
  rfl

/-! ### The event table after a reset -/

/-- Every condition is delivered by one of the three owners (Table 8-2). -/
theorem State.liveOf_condition (s : State) : ∀ c ∈ s.conditions, s.liveOf c.1.code = c.2 := by
  simp [State.liveOf, State.conditions, Ppc.conditions, Lmc.conditions, Event.code]

/-- The live codes are those of the conditions that hold (R139). -/
theorem liveCodes_contains (s : State) (k : Nat) : (liveCodes s.ppc s.lmc s.mtm).contains k = s.liveOf k := by
  rw [Bool.eq_iff_iff]
  simp only [liveCodes, State.liveOf, State.conditions, List.contains_iff_mem, List.mem_map, List.mem_filter, List.any_eq_true,
    Bool.and_eq_true, beq_iff_eq]
  exact exists_congr fun c => ⟨fun ⟨⟨hm, h2⟩, hk⟩ => ⟨hm, hk, h2⟩, fun ⟨hm, hk, h2⟩ => ⟨⟨hm, h2⟩, hk⟩⟩

/-- An event table as a reset leaves it: one code latched, the live flags given, all else at rest (R148, R149). -/
def Ntu.fresh (code : Nat) (live : List Nat) : Ntu :=
  { table := (List.range 32).map fun k => { EventEntry.initial k (live.contains k) with latched := k == code }
    globalEnable := false, holdOff := none }

theorem Ntu.initial_eq (live : List Nat) : Ntu.initial live = Ntu.fresh Event.powerOn.code live := rfl
theorem Ntu.restarted_eq (live : List Nat) : Ntu.restarted live = Ntu.fresh Event.restarted.code live := rfl

@[simp] theorem Ntu.fresh_length (code : Nat) (live : List Nat) : (Ntu.fresh code live).table.length = 32 := by
  simp [Ntu.fresh]

theorem Ntu.fresh_entry {code : Nat} {live : List Nat} {k : Nat} {e : EventEntry}
    (h : (Ntu.fresh code live).table[k]? = some e) :
    e = { EventEntry.initial k (live.contains k) with latched := k == code } := by
  simp only [Ntu.fresh, List.getElem?_map, Option.map_eq_some_iff] at h
  obtain ⟨j, hj, rfl⟩ := h
  obtain ⟨_, rfl⟩ := List.getElem?_eq_some_iff.1 hj
  simp

theorem Ntu.fresh_at (code : Nat) (live : List Nat) {k : Nat} (hk : k < 32) : (Ntu.fresh code live).table[k]?
    = some { EventEntry.initial k (live.contains k) with latched := k == code } := by
  simp [Ntu.fresh, hk]

theorem Ntu.fresh_isLatched (f : Event) (live : List Nat) (e : Event) :
    (Ntu.fresh f.code live).isLatched e = decide (e = f) := by
  rw [Ntu.isLatched, Ntu.fresh_at _ _ e.code_lt]
  simp [beq_eq_decide, Event.code_inj]

theorem Ntu.fresh_isLive (code : Nat) (live : List Nat) (e : Event) :
    (Ntu.fresh code live).isLive e = live.contains e.code := by
  rw [Ntu.isLive, Ntu.fresh_at _ _ e.code_lt]
  rfl

/-! ### Power-on reset -/

/-- PPC before the first settlement: SW_DC follows DCIN_OK, and the bridge, where it is fitted and DCIN_OK is clear, carries
alone (R46, R66). -/
theorem Ppc.powerOn_eq (pins : Pins) : Ppc.powerOn pins = { Ppc.initial pins with
    swDc := pins.dcinOk
    bridge := { fitted := pins.brPres, last := none, low := false, switch := pins.brPres && !pins.dcinOk
                alone := pins.brPres && !pins.dcinOk
                window := if pins.brPres && !pins.dcinOk then .waiting else .none, exhausted := false } } := by
  obtain ⟨presA, presB, leverA, leverB, dcinOk, brPres⟩ := pins
  cases presA <;> cases presB <;> cases dcinOk <;> cases brPres <;> rfl

/-- The C_power of the first settlement (R56, R57, R66). -/
def Pins.firstCeiling (pins : Pins) : Nat := if pins.dcinOk then 4095 else if pins.brPres then 2559 else 0

/-- LMC after the first delivery (R66, R104). -/
def Lmc.ceiledFirst (c : Nat) : Lmc := if c = 0 then .initial else { Lmc.initial with cPower := c }.recompute

/-- The state before the first settlement. -/
def State.preSettled (pins : Pins) (pending : List Instr) : State :=
  { lki := .initial, srt := .factory, rqh := .initial, ppc := Ppc.powerOn pins, lmc := .initial, mtm := .initial
    ntu := Ntu.initial (liveCodes (Ppc.powerOn pins) .initial .initial), pending := pending }

theorem State.powerOn_def (pins : Pins) (pending : List Instr) :
    State.powerOn pins pending = (State.preSettled pins pending).ppcSettle (Ppc.powerOn pins) [] := rfl

/-- The C_power of the first settlement, by the sources that the selection run can find (R56, R57). -/
theorem Ppc.powerOn_cPower (presA presB leverA leverB dcinOk brPres : Bool) :
    ((Ppc.powerOn ⟨presA, presB, leverA, leverB, dcinOk, brPres⟩).settle
      (Ppc.powerOn ⟨presA, presB, leverA, leverB, dcinOk, brPres⟩) 0).budget.cPower
      = Pins.firstCeiling ⟨presA, presB, leverA, leverB, dcinOk, brPres⟩ := by
  revert presA presB leverA leverB dcinOk brPres
  decide

/-- The first settlement finds the bridge record in order and sets the budget alone (R56, R57, R66). -/
theorem Ppc.powerOn_settle (pins : Pins) : (Ppc.powerOn pins).settle (Ppc.powerOn pins) 0 = { Ppc.powerOn pins with
    budget := { ((Ppc.powerOn pins).settle (Ppc.powerOn pins) 0).budget with
      cPower := Pins.firstCeiling pins, delivered := 0 } } := by
  have hc := Ppc.powerOn_cPower pins.presA pins.presB pins.leverA pins.leverB pins.dcinOk pins.brPres
  rw [← hc]
  rw [Ppc.powerOn_eq]
  obtain ⟨presA, presB, leverA, leverB, dcinOk, brPres⟩ := pins
  cases presA <;> cases presB <;> cases dcinOk <;> cases brPres <;> rfl

theorem State.ppcQuiet_of_live (s : State) (p : Ppc) (h : ∀ c ∈ p.conditions, s.ntu.isLive c.1 = c.2) :
    s.ppcQuiet p [] = s.setPpc p := (s.setPpc p).raise_of_live _ h

/-- A ceiling that O does not stand above is delivered without an event, where LMC's conditions stand as they are live. -/
theorem State.deliverCeiling_of_live (s : State) (c : Nat) (ho : s.lmc.out ≤ c)
    (h : ∀ d ∈ ({ s.lmc with cPower := c }.recompute : Lmc).conditions, s.ntu.isLive d.1 = d.2) :
    s.deliverCeiling c = s.setLmc { s.lmc with cPower := c }.recompute := by
  unfold State.deliverCeiling State.lmcCut
  rw [if_neg (by simpa using ho)]
  exact (s.setLmc _).raise_of_live _ h

/-- A live flag of a fresh table shows the condition in the state from which the reset built it (R148, R149). -/
theorem State.fresh_isLive_condition (s : State) (code : Nat) : ∀ c ∈ s.conditions,
    (Ntu.fresh code (liveCodes s.ppc s.lmc s.mtm)).isLive c.1 = c.2 := fun c hc => by
  rw [Ntu.fresh_isLive, liveCodes_contains, s.liveOf_condition c hc]

/-- Power-on reset raises nothing: PPC takes the first budget, and LMC the first ceiling (R66). -/
theorem State.powerOn_eq (pins : Pins) (pending : List Instr) : State.powerOn pins pending =
    { State.preSettled pins pending with
      ppc := { Ppc.powerOn pins with budget := { ((Ppc.powerOn pins).settle (Ppc.powerOn pins) 0).budget with
        cPower := Pins.firstCeiling pins, delivered := Pins.firstCeiling pins } }
      lmc := Lmc.ceiledFirst (Pins.firstCeiling pins) } := by
  have hlive := (State.preSettled pins pending).fresh_isLive_condition Event.powerOn.code
  have hppc : ∀ b : Budget, (State.preSettled pins pending).ppcQuiet { Ppc.powerOn pins with budget := b } []
      = (State.preSettled pins pending).setPpc { Ppc.powerOn pins with budget := b } := fun b =>
    State.ppcQuiet_of_live _ _ fun c hc => hlive c (List.mem_append_left _ (List.mem_append_left _ hc))
  have hx : (Ppc.powerOn pins).bridge.exhausted = false := by rw [Ppc.powerOn_eq]
  have hsettle : (State.preSettled pins pending).ppc.settle (Ppc.powerOn pins) (State.preSettled pins pending).lmc.out = _ :=
    Ppc.powerOn_settle pins
  rw [State.powerOn_def]
  unfold State.ppcSettle
  simp only [hsettle, hx, Bool.false_and, Bool.false_eq_true, if_false, List.append_nil, hppc]
  by_cases hc : Pins.firstCeiling pins = 0
  · rw [if_pos hc]
    simp [hc, Lmc.ceiledFirst]
    rfl
  · have hlmc : ∀ c : Nat, ∀ d ∈ ({ Lmc.initial with cPower := c }.recompute : Lmc).conditions,
        (State.preSettled pins pending).ntu.isLive d.1 = d.2 := fun _ d hd =>
      hlive d (List.mem_append_left _ (List.mem_append_right _ hd))
    rw [if_neg hc, State.deliverCeiling_of_live _ _ (Nat.zero_le _) (hlmc _)]
    simp [hc, Lmc.ceiledFirst]
    rfl

/-- The first ceiling is taken in FAIL with O at 0: the target record alone moves (R104). -/
theorem Lmc.ceiledFirst_eq (c : Nat) : ∃ t0 target, Lmc.ceiledFirst c = { Lmc.initial with
    t0 := t0, cPower := c, target := target } := by
  unfold Lmc.ceiledFirst
  by_cases hc : c = 0
  · exact ⟨0, 0, by rw [if_pos hc, hc]; rfl⟩
  · exact ⟨{ Lmc.initial with cPower := c }.recompute.t0, { Lmc.initial with cPower := c }.recompute.target, by
      rw [if_neg hc]; rfl⟩

/-- A live flag after power-on reset is the condition of its code in a state with the pack records, the bridge and the roles of
that reset (R139, R148). -/
theorem State.powerOn_liveOf (pins : Pins) (pending : List Instr) (k : Nat) :
    (State.powerOn pins pending).liveOf k = (liveCodes (Ppc.powerOn pins) .initial .initial).contains k := by
  obtain ⟨t0, target, hl⟩ := Lmc.ceiledFirst_eq (Pins.firstCeiling pins)
  have hsame : (State.powerOn pins pending).conditions = (State.preSettled pins pending).conditions := by
    rw [State.powerOn_eq, hl]
    rfl
  have hcodes : liveCodes (Ppc.powerOn pins) .initial .initial =
      liveCodes (State.preSettled pins pending).ppc (State.preSettled pins pending).lmc (State.preSettled pins pending).mtm :=
    rfl
  rw [hcodes, liveCodes_contains]
  simp only [State.liveOf, hsame]

/-- With no pin active power-on reset leaves the model's reset state (log entry 5). -/
theorem State.powerOn_inactive (pending : List Instr) :
    State.powerOn Pins.inactive pending = State.reset.setPending pending := by
  have hppc : { Ppc.powerOn Pins.inactive with
      budget := { ((Ppc.powerOn Pins.inactive).settle (Ppc.powerOn Pins.inactive) 0).budget with
        cPower := Pins.firstCeiling Pins.inactive, delivered := Pins.firstCeiling Pins.inactive } }
      = Ppc.initial Pins.inactive := by decide
  have hcodes : liveCodes (Ppc.powerOn Pins.inactive) .initial .initial =
      [(Event.lightLost .front).code, (Event.lightLost .top).code, Event.motionBlind.code] := by decide
  rw [State.powerOn_eq, hppc]
  unfold State.preSettled
  rw [hcodes]
  rfl

/-- Settles O13: power-on reset is its fresh blocks with the first budget and the first ceiling, read field by field. -/
theorem powerOnReset : Obligations.PowerOnReset := by
  intro pins s
  refine ⟨State.powerOn pins s.pending, rfl, rfl, ?_⟩
  have hlive := State.powerOn_liveOf pins s.pending
  have hinactive : pins = Pins.inactive → State.powerOn pins s.pending = State.reset.setPending s.pending := fun h => by
    rw [h, State.powerOn_inactive]
  generalize ht : State.powerOn pins s.pending = t at hlive hinactive ⊢
  rw [State.powerOn_eq] at ht
  obtain ⟨t0, target, hl⟩ := Lmc.ceiledFirst_eq (Pins.firstCeiling pins)
  rw [hl, Ppc.powerOn_eq] at ht
  have hntu : t.ntu = Ntu.fresh Event.powerOn.code (liveCodes (Ppc.powerOn pins) .initial .initial) := by
    rw [← Ntu.initial_eq]
    exact ht ▸ rfl
  have hentry : ∀ (k : Nat) (e : EventEntry), t.ntu.table[k]? = some e →
      e.notified = false ∧ e.enable = false ∧ e.level = (hardLevel k).getD 0 ∧ e.live = t.liveOf k := fun k e he => by
    rw [hntu] at he
    rw [Ntu.fresh_entry he, hlive]
    exact ⟨rfl, rfl, rfl, rfl⟩
  have hlatched : ∀ e : Event, t.ntu.isLatched e = decide (e = .powerOn) := fun e => by
    rw [hntu, Ntu.fresh_isLatched]
  have hlength : t.ntu.table.length = 32 := by rw [hntu, Ntu.fresh_length]
  have henable : t.ntu.globalEnable = false ∧ t.ntu.holdOff = none := by rw [hntu]; exact ⟨rfl, rfl⟩
  clear hl hlive hntu
  subst ht
  refine ⟨rfl, rfl, rfl, rfl, rfl, rfl, rfl, rfl, rfl, ⟨rfl, rfl⟩, rfl, rfl, rfl, rfl, rfl, rfl, rfl, rfl, rfl, rfl, rfl, rfl, rfl,
    rfl, ?_, rfl, rfl, ?_, rfl, rfl, rfl, hlatched, henable.1, henable.2, hlength, hentry, hinactive⟩
  · intro r
    cases r <;> exact ⟨rfl, rfl, rfl⟩
  · exact ⟨rfl, rfl, rfl, rfl, rfl, rfl, rfl, rfl, rfl⟩

end Sys2Proof.Machine
end

section
/-! The evaluation of the curve and the recomputation of the target, as R89 to R92 and R96 state them. -/

namespace Sys2Proof.Machine

/-! ### The curve -/

theorem Curve.inSegment_iff (c : Curve) (i f : Nat) :
    c.inSegment i f = true ↔ (c.point i).x ≤ f ∧ f < (c.point (i + 1)).x := by
  simp [Curve.inSegment]

/-- The points in use rise strictly, or two neighbours do not rise (R90). -/
theorem Curve.rises_iff (c : Curve) : c.rises = true ↔ ¬∃ k < c.n - 1, (c.point (k + 1)).x ≤ (c.point k).x := by
  simp [Curve.rises]

/-- Along a rising curve the points stand in their order. -/
theorem Curve.point_le_of_rises {c : Curve} (h : c.rises = true) {i j : Nat} (hij : i ≤ j) (hj : j ≤ c.n - 1) :
    (c.point i).x ≤ (c.point j).x := by
  rw [Curve.rises_iff] at h
  induction j, hij using Nat.le_induction with
  | base => exact Nat.le_refl _
  | succ j hij ih =>
    have hstep : (c.point j).x < (c.point (j + 1)).x := by
      by_contra hle
      exact h ⟨j, by omega, by omega⟩
    exact (ih (by omega)).trans hstep.le

/-- Along a rising curve a measurement lies within one segment at most. -/
theorem Curve.inSegment_unique {c : Curve} (h : c.rises = true) {i j f : Nat} (hi : i < c.n - 1) (hj : j < c.n - 1)
    (hfi : c.inSegment i f = true) (hfj : c.inSegment j f = true) : i = j := by
  rw [Curve.inSegment_iff] at hfi hfj
  rcases Nat.lt_trichotomy i j with hlt | heq | hlt
  · have := c.point_le_of_rises h (Nat.add_one_le_iff.2 hlt) (by omega); omega
  · exact heq
  · have := c.point_le_of_rises h (Nat.add_one_le_iff.2 hlt) (by omega); omega

/-- A measurement between the end points lies within a segment. -/
theorem Curve.inSegment_exists (c : Curve) {f : Nat} (h0 : (c.point 0).x < f) (hn : f < (c.point (c.n - 1)).x) :
    ∃ i < c.n - 1, c.inSegment i f = true := by
  by_contra hno
  have hbelow : ∀ i ≤ c.n - 1, (c.point i).x ≤ f := fun i hi => by
    induction i with
    | zero => exact h0.le
    | succ i ih =>
      by_contra hgt
      exact hno ⟨i, by omega, (c.inSegment_iff i f).2 ⟨ih (by omega), by omega⟩⟩
  exact absurd (hbelow _ (Nat.le_refl _)) (by omega)

/-- The cases of a full search (R90). -/
theorem Curve.fullSearch_cases (c : Curve) (f : Nat) :
    (c.rises = false ∧ c.fullSearch f = ({ c with validationPending := false, latch := none, consistent := false }, none))
    ∨ (c.rises = true ∧ f ≤ (c.point 0).x
        ∧ c.fullSearch f = ({ c with validationPending := false, latch := none, consistent := true }, some (c.point 0).y))
    ∨ (c.rises = true ∧ (c.point 0).x < f ∧ (c.point (c.n - 1)).x ≤ f
        ∧ c.fullSearch f = ({ c with validationPending := false, latch := none, consistent := true },
            some (c.point (c.n - 1)).y))
    ∨ ∃ i < c.n - 1, c.rises = true ∧ (c.point 0).x < f ∧ f < (c.point (c.n - 1)).x ∧ c.inSegment i f = true
        ∧ c.fullSearch f = ({ c with validationPending := false, latch := some i, consistent := true },
            some (c.value i f)) := by
  unfold Curve.fullSearch
  dsimp only
  by_cases hr : c.rises = true
  · by_cases h0 : f ≤ (c.point 0).x
    · exact .inr (.inl ⟨hr, h0, by simp [hr, h0]⟩)
    · by_cases hn : (c.point (c.n - 1)).x ≤ f
      · exact .inr (.inr (.inl ⟨hr, by omega, hn, by simp [hr, h0, hn]⟩))
      · obtain ⟨k, hk, hin⟩ := c.inSegment_exists (Nat.lt_of_not_le h0) (Nat.lt_of_not_le hn)
        cases hfind : (List.range (c.n - 1)).find? fun i => c.inSegment i f with
        | none => exact absurd hin (List.find?_eq_none.1 hfind k (List.mem_range.2 hk))
        | some i =>
          have hi := List.find?_some hfind
          have hm := List.mem_of_find?_eq_some hfind
          exact .inr (.inr (.inr ⟨i, List.mem_range.1 hm, hr, by omega, by omega, hi, by simp [hr, h0, hn]; rfl⟩))
  · exact .inl ⟨by simpa using hr, by simp [hr]⟩

/-- The cases of an evaluation: from the latched segment, or by a full search (R89). -/
theorem Curve.evaluate_cases (c : Curve) (f : Nat) :
    (∃ i, c.latch = some i ∧ c.inSegment i f = true ∧ c.evaluate f = (c, some (c.value i f)))
      ∨ (∀ i, c.latch = some i → c.inSegment i f = false) ∧ c.evaluate f = c.fullSearch f := by
  unfold Curve.evaluate
  cases hl : c.latch with
  | none => exact .inr ⟨by simp, rfl⟩
  | some i =>
    by_cases hi : c.inSegment i f = true
    · exact .inl ⟨i, rfl, hi, by simp [hi]; rfl⟩
    · exact .inr ⟨by simpa using hi, by simp [hi]⟩

theorem Curve.evaluate_evaluates (c : Curve) (f : Nat) : c.Evaluates f (c.evaluate f).1 (c.evaluate f).2 := by
  unfold Curve.Evaluates
  dsimp only
  simp only [← Curve.inSegment_iff]
  rcases c.evaluate_cases f with ⟨i, hl, hi, he⟩ | ⟨hout, he⟩
  · rw [he]
    refine ⟨fun j hj _ => ?_, fun hno => absurd hi (hno i hl)⟩
    obtain rfl : i = j := Option.some.inj (hl.symm.trans hj)
    exact ⟨rfl, rfl⟩
  · refine ⟨fun j hj hin => absurd hin (by simp [hout j hj]), fun _ => ?_⟩
    rw [he, ← Curve.rises_iff]
    have hbroken := c.rises_iff
    rcases c.fullSearch_cases f with ⟨hr, hs⟩ | ⟨hr, h0, hs⟩ | ⟨hr, h0, hn, hs⟩ | ⟨i, hi, hr, h0, hn, hin, hs⟩
    · rw [hs]
      exact ⟨rfl, fun _ => ⟨rfl, rfl, rfl⟩, fun h => absurd h (by simp [hr])⟩
    · rw [hs]
      exact ⟨rfl, fun h => absurd h (hbroken.1 hr), fun _ => ⟨rfl, fun _ => ⟨rfl, rfl⟩, fun h => absurd h0 (by omega),
        fun h => absurd h0 (by omega)⟩⟩
    · rw [hs]
      refine ⟨rfl, fun h => absurd h (hbroken.1 hr), fun _ => ⟨rfl, fun h => absurd h0 (by omega), fun _ _ => ⟨rfl, rfl⟩,
        fun _ j hj hjin => ?_⟩⟩
      have := c.point_le_of_rises hr (show j + 1 ≤ c.n - 1 by omega) (Nat.le_refl _)
      have := (c.inSegment_iff j f).1 hjin
      omega
    · rw [hs]
      refine ⟨rfl, fun h => absurd h (hbroken.1 hr), fun _ => ⟨rfl, fun h => absurd h0 (by omega), fun _ h => absurd hn (by omega),
        fun _ j hj hjin => ?_⟩⟩
      obtain rfl := Curve.inSegment_unique hr hi hj hin hjin
      exact ⟨rfl, rfl⟩

/-- What an evaluation that ends consistent gives is the curve's value (R89 to R91). -/
theorem Curve.evaluate_gives (c : Curve) (f : Nat) (hc : (c.evaluate f).1.consistent = true) :
    ∃ y, (c.evaluate f).2 = some y ∧ (c.evaluate f).1.gives f y := by
  rcases c.evaluate_cases f with ⟨i, hl, hi, he⟩ | ⟨_, he⟩
  · obtain ⟨hlo, hhi⟩ := (c.inSegment_iff i f).1 hi
    rw [he]
    exact ⟨_, rfl, .inr ⟨i, hl, hlo, hhi, rfl⟩⟩
  · rw [he] at hc ⊢
    rcases c.fullSearch_cases f with ⟨_, hs⟩ | ⟨_, h0, hs⟩ | ⟨_, _, hn, hs⟩ | ⟨i, _, _, _, _, hin, hs⟩
    · rw [hs] at hc; cases hc
    · rw [hs]
      exact ⟨_, rfl, .inl ⟨rfl, .inl ⟨h0, rfl⟩⟩⟩
    · rw [hs]
      exact ⟨_, rfl, .inl ⟨rfl, .inr ⟨hn, rfl⟩⟩⟩
    · obtain ⟨hlo, hhi⟩ := (c.inSegment_iff i f).1 hin
      rw [hs]
      exact ⟨_, rfl, .inr ⟨i, rfl, hlo, hhi, rfl⟩⟩

/-! ### The target -/

/-- The bias keeps T0 a natural number: its lower bound is the floor (R92). -/
theorem Lmc.biased_eq (m : Lmc) (y : Nat) : (m.biased y : Int) = clampInt ((y : Int) + m.bias) m.curve.floor 4095 := by
  unfold Lmc.biased clampInt
  split <;> [skip; split] <;> omega

/-- T0 as the modes form it (R92). -/
theorem Lmc.formT0_fail {m : Lmc} (h : m.mode = .fail) : m.formT0 = { m with t0 := m.curve.failLevel } := by
  unfold Lmc.formT0; rw [h]
theorem Lmc.formT0_forced {m : Lmc} (h : m.mode = .forced) : m.formT0 = { m with t0 := m.forced.getD m.t0 } := by
  unfold Lmc.formT0; rw [h]
theorem Lmc.formT0_curve {m : Lmc} (h : m.mode = .curve) {f : Nat} (hf : m.f = some f) :
    m.formT0 = { m with curve := (m.curve.evaluate f).1, t0 := ((m.curve.evaluate f).2.map m.biased).getD m.t0 } := by
  unfold Lmc.formT0
  rw [h, hf]
  dsimp only
  rcases m.curve.evaluate f with ⟨c, _ | y⟩ <;> rfl

theorem Lmc.recompute_curve (m : Lmc) : m.recompute.curve = m.formT0.curve := rfl
theorem Lmc.recompute_t0 (m : Lmc) : m.recompute.t0 = m.formT0.t0 := rfl

theorem Lmc.recompute_target (m : Lmc) : m.recompute.target =
    (if m.regime = .unattended then min (min m.recompute.t0 m.cPower) m.set.cUnatt else min m.recompute.t0 m.cPower) := by
  show m.formT0.ceiled = _
  rw [Lmc.recompute_t0, Lmc.ceiled]
  have hc : m.formT0.cPower = m.cPower := by rw [m.formT0_only]
  have hr : m.formT0.regime = m.regime := by rw [m.formT0_only]
  have hs : m.formT0.set = m.set := by rw [m.formT0_only]
  rw [hc, hr, hs]

theorem Lmc.recompute_recomputed (m : Lmc) : m.Recomputed m.recompute := by
  refine ⟨?_, m.recompute_target, fun h => ?_, fun h => ?_, fun h f hf => ?_⟩
  · have := m.recompute_only
    rw [this]
  · rw [Lmc.recompute_curve, Lmc.recompute_t0, Lmc.formT0_fail h]
    exact ⟨rfl, rfl⟩
  · rw [Lmc.recompute_curve, Lmc.recompute_t0, Lmc.formT0_forced h]
    exact ⟨rfl, fun v hv => by simp [hv]⟩
  · rw [Lmc.recompute_curve, Lmc.recompute_t0, Lmc.formT0_curve h hf]
    refine ⟨_, m.curve.evaluate_evaluates f, fun hy => by simp [hy], fun v hv => ?_⟩
    rw [← Lmc.biased_eq]
    simp [hv]

theorem Lmc.recompute_aimed (m : Lmc) : m.recompute.aimed := by
  refine ⟨?_, fun h => ?_, fun h v hv => ?_, fun h hc f hf => ?_⟩
  · rw [m.recompute_target]
    simp
  · rw [Lmc.recompute_mode] at h
    rw [Lmc.recompute_curve, Lmc.recompute_t0, Lmc.formT0_fail h]
  · rw [Lmc.recompute_mode] at h
    rw [Lmc.recompute_forced] at hv
    rw [Lmc.recompute_t0, Lmc.formT0_forced h]
    simp [hv]
  · rw [Lmc.recompute_mode] at h
    rw [Lmc.recompute_f] at hf
    have hform := Lmc.formT0_curve h hf
    rw [Lmc.recompute_curve, hform] at hc
    obtain ⟨y, hy, hg⟩ := m.curve.evaluate_gives f hc
    refine ⟨y, by rw [Lmc.recompute_curve, hform]; exact hg, ?_⟩
    have hfloor : m.recompute.curve.floor = m.curve.floor := by rw [m.recompute_only]
    rw [Lmc.recompute_bias, hfloor, ← Lmc.biased_eq, Lmc.recompute_t0, hform]
    simp [hy]

end Sys2Proof.Machine
end

section
/-! The delivery of C_power (R62, R97): what the end of a PPC event tells LMC, after links that leave LMC's events alone. -/

namespace Sys2Proof.Machine

/-! ### LMC's events -/

/-- Of the event table none of LMC's own events was touched: neither CEILING_CUT nor CURVE_FAULT. -/
structure LightQuiet (s u : State) : Prop where
  told : Told s u
  events : ∃ es, s.ntu.onlyEvents es u.ntu ∧ Event.ceilingCut ∉ es ∧ Event.curveFault ∉ es

theorem LightQuiet.of_events {s u : State} {es : List Event} (h : Told s u) (hes : s.ntu.onlyEvents es u.ntu)
    (hc : Event.ceilingCut ∉ es) (hf : Event.curveFault ∉ es) : LightQuiet s u := ⟨h, es, hes, hc, hf⟩

theorem LightQuiet.refl (s : State) : LightQuiet s s :=
  .of_events (.refl s) (Ntu.onlyEvents_refl [] _) List.not_mem_nil List.not_mem_nil

theorem LightQuiet.trans {s u t : State} (h1 : LightQuiet s u) (h2 : LightQuiet u t) : LightQuiet s t := by
  obtain ⟨es, he, hec, hef⟩ := h1.events
  obtain ⟨fs, hf, hfc, hff⟩ := h2.events
  refine .of_events (h1.told.trans h2.told) (es := es ++ fs)
    (Ntu.onlyEvents_trans (Ntu.onlyEvents_mono he fun _ => List.mem_append_left _)
      (Ntu.onlyEvents_mono hf fun _ => List.mem_append_right _)) ?_ ?_
  · simp [hec, hfc]
  · simp [hef, hff]

theorem LightQuiet.of_same {s t : State} (hn : t.ntu = s.ntu) (hl : t.lki = s.lki) : LightQuiet s t :=
  .of_events (.of_same hn (by rw [hl]) (by rw [hl])) (hn ▸ Ntu.onlyEvents_refl [] _) List.not_mem_nil List.not_mem_nil

theorem LightQuiet.ceilingCut_eq {s u : State} (h : LightQuiet s u) :
    u.ntu.isLatched .ceilingCut = s.ntu.isLatched .ceilingCut := by
  obtain ⟨es, he, hc, _⟩ := h.events
  exact (Ntu.onlyEvents_other he (mt Event.code_mem_map.1 hc)).1

theorem LightQuiet.length {s u : State} (h : LightQuiet s u) : u.ntu.table.length = s.ntu.table.length := by
  obtain ⟨es, he, _⟩ := h.events
  exact he.2.2.1

theorem LightQuiet.ppcQuiet {s u : State} (h : LightQuiet s u) (p : Ppc) {ps : List Event} (hc : Event.ceilingCut ∉ ps)
    (hf : Event.curveFault ∉ ps) : LightQuiet s (u.ppcQuiet p ps) :=
  h.trans (.of_events (.ppcQuiet u p ps) (u.ppcQuiet_onlyEvents p ps) (by simp [hc, powerConditions])
    (by simp [hf, powerConditions]))

theorem Lmc.delivers_curveFault (m : Lmc) : Delivers m.conditions .curveFault (!m.curve.consistent) := by
  simp [Delivers, Lmc.conditions]

/-- The end of an LMC event delivers the consistency state (R90, R139). -/
theorem LightQuiet.faultFollows_lmcEnd {s u : State} (h : LightQuiet s u) (m : Lmc) {ps : List Event}
    (hps : Event.curveFault ∉ ps) : FaultFollows s (u.lmcEnd m ps) := by
  obtain ⟨es, he, _, hf⟩ := h.events
  have htold : Told s (u.setLmc m) := h.told.trans (.of_same rfl rfl rfl)
  unfold FaultFollows
  rw [State.lmcEnd_lmc]
  exact htold.conditionFollows he hf m.delivers_curveFault hps (.refl _) (Ntu.onlyEvents_refl [] _) List.not_mem_nil

theorem LightQuiet.faultFollows_lmcCut {s u : State} (h : LightQuiet s u) (m : Lmc) (c : Nat) :
    FaultFollows s (u.lmcCut m c) := by
  unfold State.lmcCut
  split
  · exact h.faultFollows_lmcEnd _ (by simp)
  · exact h.faultFollows_lmcEnd _ (by simp)

/-- CEILING_CUT is raised by a cut alone (R97). -/
theorem State.lmcEnd_ceilingCut_eq (s : State) (m : Lmc) :
    (s.lmcEnd m []).ntu.isLatched .ceilingCut = s.ntu.isLatched .ceilingCut :=
  (Ntu.onlyEvents_other (s.lmcEnd_onlyEvents m []) (by decide)).1

theorem LightQuiet.occurred_lmcCut {s u : State} (h : LightQuiet s u) (hlen : s.ntu.table.length = 32) {m : Lmc} {c : Nat}
    (hc : c < m.out) : Occurred s (u.lmcCut m c) .ceilingCut := by
  unfold State.lmcCut
  rw [if_pos hc]
  exact Told.occurred_of_pulse (u.setLmc { m with out := c }) _ (h.told.trans (.of_same rfl rfl rfl)) hlen
    (List.mem_singleton_self _) (.refl _)

theorem LightQuiet.ceilingCut_lmcCut {s u : State} (h : LightQuiet s u) {m : Lmc} {c : Nat} (hc : m.out ≤ c) :
    (u.lmcCut m c).ntu.isLatched .ceilingCut = s.ntu.isLatched .ceilingCut := by
  unfold State.lmcCut
  rw [if_neg (not_lt.2 hc), State.lmcEnd_ceilingCut_eq, h.ceilingCut_eq]

/-- The recomputation reads no output and moves none (R96). -/
theorem Lmc.recompute_setOut (m : Lmc) (o : Nat) : ({ m with out := o } : Lmc).recompute = { m.recompute with out := o } := by
  have hform : ({ m with out := o } : Lmc).formT0 = { m.formT0 with out := o } := by
    have hcases : m.mode = .fail ∨ m.mode = .forced ∨ m.mode = .curve := by cases m.mode <;> simp
    rcases hcases with hm | hm | hm
    · simp [Lmc.formT0, hm]
    · simp [Lmc.formT0, hm]
    · rcases Option.eq_none_or_eq_some m.f with hf | ⟨f, hf⟩
      · simp [Lmc.formT0, hm, hf]
      · rw [Lmc.formT0_curve hm hf, Lmc.formT0_curve (m := { m with out := o }) hm hf]; rfl
  unfold Lmc.recompute
  rw [hform]
  rfl

/-! ### The end of a PPC event -/

/-- A settlement delivers the C_power that it leaves (R62). -/
theorem LightQuiet.delivered_ppcSettle {s u : State} (h : LightQuiet s u) {p : Ppc} {ps : List Event}
    (hd : p.budget.delivered = s.ppc.budget.delivered) (hc : Event.ceilingCut ∉ ps) (hf : Event.curveFault ∉ ps) :
    CeilingDelivered u.lmc s (u.ppcSettle p ps) := by
  have hmore : ∀ b : Bool, Event.ceilingCut ∉ ps ++ (if b then [Event.bridgeExhausted] else [])
      ∧ Event.curveFault ∉ ps ++ (if b then [Event.bridgeExhausted] else []) := fun b => by
    cases b <;> simp [hc, hf]
  have hppc := u.ppcSettle_ppc p ps
  unfold CeilingDelivered
  rw [hppc]
  dsimp only
  have hdel : (u.ppc.settle p u.lmc.out).budget.delivered = s.ppc.budget.delivered := hd
  unfold State.ppcSettle
  dsimp only
  rw [hdel]
  refine ⟨rfl, fun heq => ?_, fun hne => ?_⟩
  · rw [if_pos heq]
    exact ⟨by simp, (h.ppcQuiet _ (hmore _).1 (hmore _).2).ceilingCut_eq⟩
  · rw [if_neg hne]
    have hq := h.ppcQuiet { u.ppc.settle p u.lmc.out with budget := { (u.ppc.settle p u.lmc.out).budget with
      delivered := (u.ppc.settle p u.lmc.out).budget.cPower } }
      (hmore ((u.ppc.settle p u.lmc.out).bridge.exhausted && !p.bridge.exhausted)).1 (hmore _).2
    refine ⟨by simp, ?_, hq.faultFollows_lmcCut _ _, fun hlen hcut => hq.occurred_lmcCut hlen (by simpa using hcut),
      fun hle => hq.ceilingCut_lmcCut (by simpa using hle)⟩
    rw [State.deliverCeiling_lmc, State.ppcQuiet_lmc]
    have := Lmc.recompute_recomputed { u.lmc with
      cPower := (u.ppc.settle p u.lmc.out).budget.cPower, out := min u.lmc.out (u.ppc.settle p u.lmc.out).budget.cPower }
    rw [Lmc.recompute_setOut { u.lmc with cPower := (u.ppc.settle p u.lmc.out).budget.cPower }] at this
    exact this

/-- An event without a settlement leaves the C_power delivered. -/
theorem LightQuiet.delivered_ppcQuiet {s u : State} (h : LightQuiet s u) {p : Ppc} {ps : List Event}
    (hb : p.budget = s.ppc.budget) (hs : s.ppc.budget.cPower = s.ppc.budget.delivered) (hc : Event.ceilingCut ∉ ps)
    (hf : Event.curveFault ∉ ps) : CeilingDelivered u.lmc s (u.ppcQuiet p ps) := by
  unfold CeilingDelivered
  simp only [State.ppcQuiet_ppc, State.ppcQuiet_lmc, hb]
  exact ⟨hs.symm, fun _ => ⟨trivial, (h.ppcQuiet p hc hf).ceilingCut_eq⟩, fun hne => absurd hs hne⟩

theorem LightQuiet.delivered_ppcEnd {s u : State} (h : LightQuiet s u) {p : Ppc} {ps : List Event}
    (hb : p.budget = s.ppc.budget) (hs : s.ppc.budget.cPower = s.ppc.budget.delivered) (hc : Event.ceilingCut ∉ ps)
    (hf : Event.curveFault ∉ ps) : CeilingDelivered u.lmc s (u.ppcEnd p ps) := by
  unfold State.ppcEnd
  split
  · exact h.delivered_ppcQuiet hb hs hc hf
  · exact h.delivered_ppcSettle (by rw [hb]) hc hf

end Sys2Proof.Machine
end

section
/-! The end of brace and of PROTECT_HOLD (R20, R42, R53, R54, R80, R110, R117): the pending releases, the bridge, and what a
selection run does to the bridge and to the settle timer. -/

namespace Sys2Proof.Machine

/-! ### Selection -/

@[simp] theorem Ppc.closeBridge_budget (p : Ppc) : p.closeBridge.budget = p.budget := by
  unfold Ppc.closeBridge; split <;> rfl
@[simp] theorem Ppc.setPack_budget (p : Ppc) (x : Slot) (k : Pack) : (p.setPack x k).budget = p.budget := by cases x <;> rfl
@[simp] theorem Ppc.setPack_bridge (p : Ppc) (x : Slot) (k : Pack) : (p.setPack x k).bridge = p.bridge := by cases x <;> rfl
@[simp] theorem Ppc.setPack_swDc (p : Ppc) (x : Slot) (k : Pack) : (p.setPack x k).swDc = p.swDc := by cases x <;> rfl
@[simp] theorem Ppc.closeBridge_swDc (p : Ppc) : p.closeBridge.swDc = p.swDc := by
  unfold Ppc.closeBridge; split <;> rfl
@[simp] theorem Ppc.endTransfer_budget (p : Ppc) (x : Option Slot) : (p.endTransfer x).budget = p.budget := by
  rcases x with _ | ⟨⟨⟩⟩ <;> rfl
@[simp] theorem Ppc.endTransfer_bridge (p : Ppc) (x : Option Slot) : (p.endTransfer x).bridge = p.bridge := by
  rcases x with _ | ⟨⟨⟩⟩ <;> rfl
@[simp] theorem Ppc.endTransfer_swDc (p : Ppc) (x : Option Slot) : (p.endTransfer x).swDc = p.swDc := by
  rcases x with _ | ⟨⟨⟩⟩ <;> rfl
@[simp] theorem Ppc.endTransfer_settleTimer (p : Ppc) (x : Option Slot) : (p.endTransfer x).settleTimer = some settleMs := by
  rcases x with _ | ⟨⟨⟩⟩ <;> rfl

/-- A transfer inside a selection run: SW_BR closes first, the settle timer starts (R35). -/
def Ppc.Transferred (p q : Ppc) : Prop :=
  q.bridge = p.closeBridge.bridge ∧ q.swDc = p.swDc ∧ q.settleTimer = some settleMs ∧ q.budget = p.budget

/-- A selection run follows DCIN_OK, or leaves everything as it is, or makes a transfer (R33). -/
theorem Ppc.select_cases (p : Ppc) :
    (p.dcinOk = true ∧ p.select = p.selectDc) ∨ (p.dcinOk = false ∧ p.select = p)
      ∨ (p.dcinOk = false ∧ p.Transferred p.select) := by
  unfold Ppc.select
  cases hd : p.dcinOk with
  | true => exact .inl ⟨rfl, rfl⟩
  | false =>
    simp only [Bool.false_eq_true, if_false]
    cases p.onlineSlot with
    | some x =>
      dsimp only
      split
      · exact .inr (.inr ⟨trivial, by simp [Ppc.Transferred]⟩)
      · exact .inr (.inl ⟨trivial, rfl⟩)
    | none =>
      dsimp only
      cases p.choose with
      | none => exact .inr (.inl ⟨trivial, rfl⟩)
      | some y => exact .inr (.inr ⟨trivial, by simp [Ppc.Transferred]⟩)

theorem Ppc.selectDc_budget (p : Ppc) : p.selectDc.budget = p.budget := by
  unfold Ppc.selectDc; dsimp only; split <;> rfl

@[simp] theorem Ppc.select_budget (p : Ppc) : p.select.budget = p.budget := by
  rcases p.select_cases with ⟨_, h⟩ | ⟨_, h⟩ | ⟨_, _, _, _, h⟩
  · rw [h, p.selectDc_budget]
  · rw [h]
  · exact h

/-- With DCIN_OK carried already, selection leaves the bridge and the settle timer (R33 step 1). -/
theorem Ppc.selectDc_of_swDc (p : Ppc) (h : p.swDc = true) :
    p.selectDc.bridge = p.bridge ∧ p.selectDc.settleTimer = p.settleTimer := by
  unfold Ppc.selectDc
  simp [h]

/-- A selection run while TRANSFER_SETTLE runs keeps a closed SW_BR (R33, R36). -/
theorem Ppc.select_bridge_closed (p : Ppc) (ht : p.settleTimer.isSome = true) (hb : p.bridge.switch = true) :
    p.select.bridge.switch = true := by
  have hnone : p.settleTimer.isNone = false := by cases hs : p.settleTimer <;> simp_all
  rcases p.select_cases with ⟨_, h⟩ | ⟨_, h⟩ | ⟨_, h, _⟩
  · rw [h]
    simp [Ppc.selectDc, hnone, hb]
  · rw [h, hb]
  · rw [h]
    unfold Ppc.closeBridge
    split
    · rfl
    · exact hb

/-! ### The end of brace -/

/-- Brace ends, and SW_BR opens where it is free and no transfer settles (R54). -/
def Ppc.unbraced (p : Ppc) : Ppc :=
  let p1 := { p with brace := false }
  if p1.settleTimer.isNone then p1.openBridgeIfFree else p1

/-- The records after the pending releases, before the selection run (R42). -/
def Ppc.released (p : Ppc) : Ppc :=
  { p.unbraced with packA := p.unbraced.packA.completeRelease p.profile, packB := p.unbraced.packB.completeRelease p.profile }

theorem Ppc.braceOff_eq (p : Ppc) :
    p.braceOff = if p.packA.completes || p.packB.completes then p.released.select else p.released := rfl

theorem Ppc.openBridgeIfFree_cases (p : Ppc) :
    (p.bridgeNeeded = true ∧ p.openBridgeIfFree = p) ∨ (p.bridgeNeeded = false ∧ p.openBridgeIfFree = p.openBridge) := by
  unfold Ppc.openBridgeIfFree
  cases p.bridgeNeeded with
  | true => exact .inl ⟨rfl, rfl⟩
  | false => exact .inr ⟨rfl, rfl⟩

/-- With no transfer settling SW_BR stays as it is where nothing else is closed, and opens otherwise (R54). -/
theorem Ppc.unbraced_cases (p : Ppc) :
    (p.settleTimer.isSome = true ∨ p.mainClosed = false) ∧ p.unbraced = { p with brace := false }
      ∨ p.settleTimer = none ∧ p.mainClosed = true ∧ p.unbraced = { p with brace := false }.openBridge := by
  unfold Ppc.unbraced
  dsimp only
  cases ht : p.settleTimer with
  | some v => exact .inl ⟨.inl rfl, rfl⟩
  | none =>
    rcases Ppc.openBridgeIfFree_cases { p with brace := false } with ⟨hn, h⟩ | ⟨hn, h⟩
    · have hmain : (!p.mainClosed) = true := hn
      refine .inl ⟨.inr (by simpa using hmain), ?_⟩
      rw [← ht]; simpa [ht] using h
    · have hmain : (!p.mainClosed) = false := hn
      refine .inr ⟨rfl, by simpa using hmain, ?_⟩
      rw [← ht]; simpa [ht] using h

theorem Ppc.unbraced_only (p : Ppc) :
    p.unbraced = { p with brace := false, bridge := { p.bridge with switch := p.unbraced.bridge.switch } } := by
  rcases p.unbraced_cases with ⟨_, h⟩ | ⟨_, _, h⟩
  · rw [h]
  · rw [h]; rfl

theorem Ppc.released_only (p : Ppc) : p.released = { p with
    brace := false, bridge := { p.bridge with switch := p.unbraced.bridge.switch }
    packA := p.packA.completeRelease p.profile, packB := p.packB.completeRelease p.profile } := by
  unfold Ppc.released
  rw [p.unbraced_only]

theorem Ppc.released_pack (p : Ppc) (x : Slot) : p.released.pack x = (p.pack x).completeRelease p.profile := by
  rw [p.released_only]
  cases x <;> rfl

theorem Ppc.released_onlySelection (p : Ppc) : ({ p with brace := false } : Ppc).onlySelection p.released := by
  rw [p.released_only]; rfl

@[simp] theorem Pack.completeRelease_switch (k : Pack) (f : PackProfile) : (k.completeRelease f).switch = k.switch := by
  unfold Pack.completeRelease
  repeat' split
  all_goals rfl

theorem Pack.completeRelease_waiting {k : Pack} (h : k.lockPending = false) (f : PackProfile) : k.completeRelease f = k := by
  simp [Pack.completeRelease, h]

/-- A pending release unlocks (R42). -/
theorem Pack.completeRelease_lock {k : Pack} (h : k.lockPending = true) (f : PackProfile) :
    (k.completeRelease f).lock = false ∧ (k.completeRelease f).lockPending = false := by
  unfold Pack.completeRelease
  rw [if_neg (by simp [h])]
  split <;> exact ⟨rfl, rfl⟩

/-- A pending release completes a RELEASING pack (R42). -/
theorem Pack.completeRelease_releasing {k : Pack} (h : k.lockPending = true) (hs : k.state = .releasing) (f : PackProfile) :
    (k.completeRelease f).state = .unlocked ∧ (k.completeRelease f).holdTimer = some f.unlockHold := by
  simp [Pack.completeRelease, h, hs]

theorem Pack.onlySelected_lock {k k' : Pack} (h : k.onlySelected k') : k'.lock = k.lock ∧ k'.lockPending = k.lockPending := by
  rcases h with rfl | ⟨_, rfl⟩ | ⟨_, rfl⟩ <;> exact ⟨rfl, rfl⟩

/-- The end of brace makes the pending releases, and then selects at most (R42). -/
theorem Ppc.braceOff_pack (p : Ppc) (x : Slot) :
    ((p.pack x).completeRelease p.profile).onlySelected (p.braceOff.pack x) := by
  rw [Ppc.braceOff_eq, ← Ppc.released_pack]
  split
  · exact p.released.select_pack x
  · exact .inl rfl

theorem Ppc.braceOff_releasing (p : Ppc) (x : Slot) (h : (p.pack x).lockPending = true) (hs : (p.pack x).state = .releasing) :
    (p.braceOff.pack x).state = .unlocked ∧ (p.braceOff.pack x).holdTimer = some p.profile.unlockHold := by
  have hr := Pack.completeRelease_releasing h hs p.profile
  rcases p.braceOff_pack x with hp | ⟨hst, _⟩ | ⟨hst, _⟩
  · rw [hp]; exact hr
  · rw [hr.1] at hst; cases hst
  · rw [hr.1] at hst; cases hst

theorem Ppc.braceOff_onlySelection (p : Ppc) : ({ p with brace := false } : Ppc).onlySelection p.braceOff := by
  rw [Ppc.braceOff_eq]
  split
  · exact Ppc.onlySelection_trans p.released_onlySelection p.released.select_onlySelection
  · exact p.released_onlySelection

theorem Ppc.braceOff_budget (p : Ppc) : p.braceOff.budget = p.budget := by
  have : p.released.budget = p.budget := by rw [p.released_only]
  rw [Ppc.braceOff_eq]
  split
  · rw [Ppc.select_budget, this]
  · exact this

/-- Where no release is pending the end of brace moves SW_BR alone (R54). -/
theorem Ppc.braceOff_none_pending (p : Ppc) (h : ∀ x, (p.pack x).lockPending = false) : p.braceOff.packA = p.packA
    ∧ p.braceOff.packB = p.packB ∧ p.braceOff.swDc = p.swDc ∧ p.braceOff.settleTimer = p.settleTimer := by
  have ha : p.packA.lockPending = false := h .a
  have hb : p.packB.lockPending = false := h .b
  rw [Ppc.braceOff_eq, if_neg (by simp [Pack.completes, ha, hb]), p.released_only]
  exact ⟨Pack.completeRelease_waiting ha _, Pack.completeRelease_waiting hb _, rfl, rfl⟩

/-- A closed SW_BR stays closed while TRANSFER_SETTLE runs (R36, R54). -/
theorem Ppc.braceOff_bridge_closed (p : Ppc) (ht : p.settleTimer.isSome = true) (hb : p.bridge.switch = true) :
    p.braceOff.bridge.switch = true := by
  have hun : p.unbraced = { p with brace := false } := by
    rcases p.unbraced_cases with ⟨_, h⟩ | ⟨hn, _⟩
    · exact h
    · rw [hn] at ht; cases ht
  have hrb : p.released.bridge.switch = true := by rw [p.released_only, hun]; exact hb
  have hrt : p.released.settleTimer.isSome = true := by rw [p.released_only]; exact ht
  rw [Ppc.braceOff_eq]
  split
  · exact p.released.select_bridge_closed hrt hrb
  · exact hrb

/-- With no transfer settling before or after, SW_BR is closed only where nothing else is (R53, R54). -/
theorem Ppc.braceOff_bridge_free (p : Ppc) (hdc : p.swDc = p.dcinOk) (ht : p.settleTimer = none)
    (ht' : p.braceOff.settleTimer = none) (hb : p.braceOff.bridge.switch = true) : p.braceOff.mainClosed = false := by
  have hreleased : p.released.bridge.switch = true → p.released.mainClosed = false := fun h => by
    rw [p.released_only] at h ⊢
    simp only [Ppc.mainClosed, Pack.completeRelease_switch]
    rcases p.unbraced_cases with ⟨hn | hn, _⟩ | ⟨_, _, hu⟩
    · rw [ht] at hn; cases hn
    · exact hn
    · rw [hu] at h; cases h
  by_cases hc : (p.packA.completes || p.packB.completes) = true
  · rw [Ppc.braceOff_eq, if_pos hc] at ht' hb ⊢
    rcases p.released.select_cases with ⟨hd, h⟩ | ⟨_, h⟩ | ⟨_, _, _, h, _⟩
    · have hsw : p.released.swDc = true := by
        rw [p.released_only] at hd ⊢
        exact hdc.trans hd
      have hbr := (p.released.selectDc_of_swDc hsw).1
      rw [h, hbr] at hb
      simp [Ppc.mainClosed, hsw] at hreleased
      exact absurd hb (by simp [hreleased])
    · rw [h] at hb ⊢; exact hreleased hb
    · rw [h] at ht'; cases ht'
  · rw [Ppc.braceOff_eq, if_neg hc] at hb ⊢
    exact hreleased hb

/-! ### The chain of the expiry -/

/-- What has occurred at one link of a chain has occurred at its end. -/
theorem Occurred.later {s u t : State} {e : Event} (h : Occurred s u e) (h1 : Told s u) (h2 : Told u t) : Occurred s t e := by
  obtain ⟨hl, hj, _⟩ := h
  obtain ⟨es, _, _, hlen, _⟩ := h1.events
  obtain ⟨fs, hfs⟩ := h2.events
  have hall : u.ntu.allJudged := fun k b hb => by
    have hlt : k < s.ntu.table.length := hlen ▸ (List.getElem?_eq_some_iff.1 hb).1
    have hiff := hj k _ b (List.getElem?_eq_getElem hlt) hb
    by_contra hel
    obtain ⟨hlat, hnot, hmay⟩ := (Ntu.eligible_iff u.ntu k b).1 (by simpa using hel)
    have := hiff.2 (.inr ⟨hlat, hmay⟩)
    rw [hnot] at this
    cases this
  exact (h1.trans h2).occurred
    ((Ntu.isLatched_iff _ _).2 (Ntu.onlyEvents_latchedAt hfs ((Ntu.isLatched_iff _ _).1 hl))) (h2.judged hall)

/-- MTM has left HOLD (R117). -/
def State.holdEnded (s : State) : State := (s.setMtm s.mtm.endHold).raise [] [(.motionBlind, !s.mtm.live)]

/-- The return to IDLE is delivered after HOLD (R110). -/
def State.unprotected (s : State) : State :=
  s.holdEnded.braceOff.freezeOff.overrideOff.setRqh { s.holdEnded.braceOff.freezeOff.overrideOff.rqh with phaseCopy := .idle }

theorem State.protectHoldExpiry_eq (s : State) (hp : s.mtm.phase = .hold) (ht : s.mtm.holdTimer.isSome = true) :
    exec .protectHoldExpiry s = .next s.unprotected := by
  show Host.Outcome.next _ = _
  rw [hp, ht]
  unfold State.mtmEnd State.deliverPhase
  rw [hp]
  rfl

theorem State.holdEnded_quiet (s : State) : LightQuiet s s.holdEnded :=
  .of_events (.raise_at (s := s) (u := s.setMtm s.mtm.endHold) rfl rfl [] _) (State.raise_onlyEvents (s.setMtm s.mtm.endHold) _ _)
    (by simp) (by simp)

@[simp] theorem State.holdEnded_ppc (s : State) : s.holdEnded.ppc = s.ppc := by simp [State.holdEnded]
@[simp] theorem State.holdEnded_lmc (s : State) : s.holdEnded.lmc = s.lmc := by simp [State.holdEnded]
@[simp] theorem State.holdEnded_srt (s : State) : s.holdEnded.srt = s.srt := by simp [State.holdEnded]
@[simp] theorem State.holdEnded_rqh (s : State) : s.holdEnded.rqh = s.rqh := by simp [State.holdEnded]
@[simp] theorem State.holdEnded_mtm (s : State) : s.holdEnded.mtm = s.mtm.endHold := by simp [State.holdEnded]
@[simp] theorem State.holdEnded_pending (s : State) : s.holdEnded.pending = s.pending := by simp [State.holdEnded]

/-- The events that the delivery of the end of brace raises (R42). -/
def Ppc.releasePulses (p : Ppc) : List Event := if p.packA.completes || p.packB.completes then [.swapReady] else []

theorem State.braceOff_eq (s : State) : s.braceOff = s.ppcEnd s.ppc.braceOff s.ppc.releasePulses := rfl

theorem Ppc.releasePulses_sub (p : Ppc) {e : Event} (h : e ∈ p.releasePulses) : e = .swapReady := by
  unfold Ppc.releasePulses at h
  split at h
  · exact List.mem_singleton.1 h
  · cases h

theorem Ppc.swapReady_mem_releasePulses {p : Ppc} {x : Slot} (h : (p.pack x).lockPending = true)
    (hs : (p.pack x).state = .releasing) : Event.swapReady ∈ p.releasePulses := by
  have hc : (p.pack x).completes = true := by simp [Pack.completes, h, hs]
  have : (p.packA.completes || p.packB.completes) = true := by
    rw [Bool.or_eq_true]
    cases x with
    | a => exact .inl hc
    | b => exact .inr hc
  simp [Ppc.releasePulses, this]

/-- A pulse raised at the end of a PPC event has occurred. -/
theorem Told.occurred_ppcEnd {s u : State} (h : Told s u) (hlen : s.ntu.table.length = 32) {p : Ppc} {ps : List Event}
    {e : Event} (he : e ∈ ps) : Occurred s (u.ppcEnd p ps) e := by
  unfold State.ppcEnd State.ppcSettle State.ppcQuiet
  dsimp only
  have hset : ∀ q : Ppc, Told s (u.setPpc q) := fun q => h.trans (.of_same rfl rfl rfl)
  split
  · exact Told.occurred_of_pulse (u.setPpc p) _ (hset p) hlen he (.refl _)
  · split
    · exact Told.occurred_of_pulse (u.setPpc _) _ (hset _) hlen (List.mem_append_left _ he) (.refl _)
    · exact Told.occurred_of_pulse (u.setPpc _) _ (hset _) hlen (List.mem_append_left _ he) (.deliverCeiling _ _)

theorem State.unprotected_told (s : State) : Told s.holdEnded.braceOff s.unprotected :=
  (Told.freezeOff s.holdEnded.braceOff).trans (.of_same rfl rfl rfl)

/-- Under the ceiling LMC holds what was settled, and O is cut to it (R62, R97). -/
theorem CeilingDelivered.cut {s t : State} (h : CeilingDelivered s.lmc s t) (hu : s.underCeiling) :
    t.lmc.cPower = t.ppc.budget.cPower ∧ t.lmc.out = min s.lmc.out t.ppc.budget.cPower
      ∧ (s.ntu.table.length = 32 → t.ppc.budget.cPower < s.lmc.out → Occurred s t .ceilingCut) := by
  obtain ⟨_, hc, _, _, ho, _⟩ := hu
  obtain ⟨_, hsame, hnew⟩ := h
  by_cases heq : t.ppc.budget.cPower = s.ppc.budget.delivered
  · obtain ⟨hl, _⟩ := hsame heq
    rw [hl, heq, ← hc]
    exact ⟨rfl, (Nat.min_eq_left ho).symm, fun _ hlt => absurd ho (not_le.2 hlt)⟩
  · obtain ⟨hout, ⟨hrec, _⟩, _, hcut, _⟩ := hnew heq
    exact ⟨by rw [hrec], hout, hcut⟩

/-- The events of the return to IDLE (R42, R59, R97). -/
theorem State.unprotected_onlyEvents (s : State) : s.ntu.onlyEvents
    (.swapReady :: .bridgeExhausted :: .ceilingCut :: .motionBlind :: powerConditions ++ lightConditions) s.unprotected.ntu := by
  have h1 : s.ntu.onlyEvents _ s.holdEnded.ntu := State.raise_onlyEvents (s.setMtm s.mtm.endHold) _ _
  have h2 : s.holdEnded.ntu.onlyEvents _ s.holdEnded.braceOff.ntu := State.ppcEnd_onlyEvents _ _ _
  have h3 := s.holdEnded.braceOff.freezeOff_onlyEvents
  refine Ntu.onlyEvents_trans (Ntu.onlyEvents_trans (Ntu.onlyEvents_mono h1 ?_) (Ntu.onlyEvents_mono h2 ?_))
    (Ntu.onlyEvents_mono h3 ?_)
  · simp
  · intro e he
    simp only [List.mem_append, List.mem_cons] at he ⊢
    rcases he with ((h | h | h) | h) | h
    · simp [h]
    · simp [h]
    · simp [Ppc.releasePulses_sub _ h]
    · simp [h]
    · simp [h]
  · intro e he
    simp [he]

/-- Settles O37: the end of brace makes the pending releases, the end of the freeze aims the target, and the settlement in
between delivers its ceiling. -/
theorem protectHoldReturnsToIdle : Obligations.ProtectHoldReturnsToIdle := by
  unfold Obligations.ProtectHoldReturnsToIdle
  intro s hphase htimer hlen
  have hlq := s.holdEnded_quiet
  have hlater := s.unprotected_told
  have hbrace : Told s.holdEnded s.holdEnded.braceOff := .braceOff _
  have hppc : s.unprotected.ppc = s.holdEnded.braceOff.ppc := by simp [State.unprotected, State.overrideOff]
  have hlmc : s.unprotected.lmc = { s.holdEnded.braceOff.lmc with freeze := false }.recompute := by
    simp [State.unprotected, State.overrideOff]
  have hmtm : s.unprotected.mtm = s.mtm.endHold := by simp [State.unprotected, State.overrideOff]
  have htarget : s.lmc.onlyTarget s.holdEnded.braceOff.lmc := by
    have := s.holdEnded.braceOff_onlyTarget; rwa [s.holdEnded_lmc] at this
  have hceiling : s.ppc.budget.cPower = s.ppc.budget.delivered → CeilingDelivered s.lmc s s.holdEnded.braceOff := fun hd => by
    have := hlq.delivered_ppcEnd (p := s.holdEnded.ppc.braceOff) (ps := s.holdEnded.ppc.releasePulses)
      (by rw [s.holdEnded_ppc, Ppc.braceOff_budget]) hd (fun h => by cases Ppc.releasePulses_sub _ h)
      (fun h => by cases Ppc.releasePulses_sub _ h)
    rwa [s.holdEnded_lmc] at this
  have hpack : ∀ x, s.holdEnded.braceOff.ppc.pack x = s.ppc.braceOff.pack x := fun x => by
    rw [State.braceOff_eq, State.ppcEnd_ppc_pack, s.holdEnded_ppc]
  refine ⟨s.unprotected, s.protectHoldExpiry_eq hphase htimer, ?_⟩
  rw [hmtm, hppc, hlmc]
  refine ⟨rfl, rfl, rfl, rfl, rfl, rfl, rfl, by simp [State.park, hmtm, Mtm.endHold], ?_, by simp, ?_, ?_,
    Lmc.recompute_aimed _, ?_, fun x hx => ?_, fun x hx hst => ?_, fun hsafe ht ht' hb => ?_, fun ht hb => ?_, ?_,
    fun x hx => ?_, fun hx => ?_, ?_, ?_, fun hu => ?_, ?_, s.unprotected_onlyEvents⟩
  · rw [State.braceOff_eq, State.ppcEnd_ppc_brace, s.holdEnded_ppc, s.ppc.braceOff_onlySelection]
  · simp [State.unprotected, State.overrideOff]
  · simp [State.unprotected, State.overrideOff]
  · rw [Lmc.recompute_f, htarget]
  · obtain ⟨hl, hp⟩ := Pack.completeRelease_lock hx s.ppc.profile
    obtain ⟨hl', hp'⟩ := Pack.onlySelected_lock (s.ppc.braceOff_pack x)
    rw [hpack]
    exact ⟨hl'.trans hl, hp'.trans hp⟩
  · obtain ⟨hstate, hhold⟩ := s.ppc.braceOff_releasing x hx hst
    rw [hpack]
    refine ⟨hstate, hhold, Occurred.later ?_ (hlq.told.trans hbrace) hlater⟩
    refine hlq.told.occurred_ppcEnd hlen (Ppc.swapReady_mem_releasePulses (x := x) ?_ ?_)
    · rwa [s.holdEnded_ppc]
    · rwa [s.holdEnded_ppc]
  · obtain ⟨_, _, _, hdc, _⟩ := hsafe
    rw [State.braceOff_eq, s.holdEnded_ppc] at ht' hb ⊢
    simp only [State.ppcEnd_ppc_settleTimer, State.ppcEnd_ppc_switch, State.ppcEnd_ppc_swDc, State.ppcEnd_ppc_packA,
      State.ppcEnd_ppc_packB] at ht' hb ⊢
    simpa [Ppc.mainClosed, and_assoc] using s.ppc.braceOff_bridge_free hdc ht ht' hb
  · rw [State.braceOff_eq, s.holdEnded_ppc, State.ppcEnd_ppc_switch]
    exact s.ppc.braceOff_bridge_closed ht hb
  · simp [State.unprotected, State.overrideOff]
  · have := s.ppc.braceOff_pack x
    rwa [Pack.completeRelease_waiting hx, ← hpack] at this
  · rw [State.braceOff_eq, s.holdEnded_ppc]
    simpa using s.ppc.braceOff_none_pending hx
  · have := s.holdEnded.ppcEnd_onlySelection s.ppc.braceOff s.ppc.releasePulses
    rw [State.braceOff_eq, s.holdEnded_ppc]
    exact Ppc.onlySelection_trans s.ppc.braceOff_onlySelection this
  · refine Lmc.onlyTarget_trans ?_ (Lmc.recompute_onlyTarget _)
    rw [htarget]
    rfl
  · obtain ⟨hd, _⟩ := id hu
    obtain ⟨hc, ho, hcut⟩ := (hceiling hd).cut hu
    refine ⟨by rw [Lmc.recompute_cPower]; exact hc, by rw [Lmc.recompute_out]; exact ho, fun hlt => ?_⟩
    exact (hcut hlen hlt).later (hlq.told.trans hbrace) hlater
  · have h1 : s.lki.onlyNotice s.holdEnded.lki := State.raise_onlyNotice (s.setMtm s.mtm.endHold) _ _
    exact Lki.onlyNotice_trans (Lki.onlyNotice_trans h1 s.holdEnded.braceOff_onlyNotice) (State.freezeOff_onlyNotice _)

end Sys2Proof.Machine
end

section
/-! What a sample that reaches an engine through the tap does to LMC and to the bridge of PPC (R50, R58, R59, R70, R79, R81). -/

namespace Sys2Proof.Machine

/-! ### The state in which the tap delivers -/

/-- `u` is `s` after the northbound path: the engines are as they were, and SAMPLE_OVERFLOW alone may have occurred. -/
structure Reached (s u : State) : Prop where
  told : Told s u
  events : s.ntu.onlyEvents [.sampleOverflow] u.ntu
  ppc : u.ppc = s.ppc
  lmc : u.lmc = s.lmc
  mtm : u.mtm = s.mtm

theorem Reached.lightQuiet {s u : State} (h : Reached s u) : LightQuiet s u :=
  .of_events h.told h.events (by decide) (by decide)

/-- The northbound path raises SAMPLE_OVERFLOW at most (R3, R5). -/
theorem State.northbound_onlyEvents (s : State) (i : Nat) (e : RouteEntry) (x : Sample) :
    s.ntu.onlyEvents [.sampleOverflow] (s.northbound i e x).ntu := by
  rcases s.northbound_cases i e x with ⟨_, _, h⟩ | ⟨_, _, g, g', h⟩ | ⟨_, _, h⟩
  · rw [h]; exact Ntu.onlyEvents_refl _ _
  · rw [h]; exact State.raise_onlyEvents (s.editEntry i g) [.sampleOverflow] []
  · rw [h]; exact Ntu.onlyEvents_refl _ _

theorem State.reached (s : State) (p : PortId) (i : Nat) (e : RouteEntry) (x : Sample) :
    Reached s ((s.hunted p).northbound i e x) where
  told := (Told.editPort s p _).trans (.northbound _ i e x)
  events := (s.hunted p).northbound_onlyEvents i e x
  ppc := by rw [State.northbound_ppc]; rfl
  lmc := by rw [State.northbound_lmc]; rfl
  mtm := by rw [State.northbound_mtm]; rfl

/-! ### A light sample -/

@[simp] theorem Lmc.role_setRole (m : Lmc) (r : LightRole) (x : LightRecord) : (m.setRole r x).role r = x := by cases r <;> rfl
theorem Lmc.role_setRole_ne (m : Lmc) {r o : LightRole} (x : LightRecord) (h : o ≠ r) : (m.setRole r x).role o = m.role o := by
  cases r with
  | front => cases o with
    | front => exact absurd rfl h
    | top => rfl
  | top => cases o with
    | front => rfl
    | top => exact absurd rfl h
/-- What a change of a role leaves of LMC. -/
theorem Lmc.setRole_only (m : Lmc) (r : LightRole) (x : LightRecord) :
    m.setRole r x = { m with front := (m.setRole r x).front, top := (m.setRole r x).top } := by cases r <;> rfl

theorem Lmc.measure_only (m : Lmc) : m.measure = { m with e := m.measure.e, lg := m.measure.lg, f := m.measure.f } := by
  unfold Lmc.measure
  cases m.combine <;> rfl

theorem Lmc.revalidate_only (m : Lmc) : m.revalidate = { m with valid := m.revalidate.valid, mode := m.revalidate.mode } := by
  unfold Lmc.revalidate
  dsimp only
  split <;> rfl

@[simp] theorem Lmc.measure_role (m : Lmc) (r : LightRole) : m.measure.role r = m.role r := by
  rw [m.measure_only]; cases r <;> rfl
@[simp] theorem Lmc.revalidate_role (m : Lmc) (r : LightRole) : m.revalidate.role r = m.role r := by
  rw [m.revalidate_only]; cases r <;> rfl
@[simp] theorem Lmc.recompute_role (m : Lmc) (r : LightRole) : m.recompute.role r = m.role r := by cases r <;> simp [Lmc.role]

/-- Valid, after it is judged (R77). -/
theorem Lmc.revalidate_valid (m : Lmc) : m.revalidate.valid = (m.f.isSome && (m.front.live || m.top.live)) := by
  unfold Lmc.revalidate
  dsimp only
  split
  · next h => exact h.symm
  · rfl

/-- The mode, where valid or FORCED keeps it (R78). -/
theorem Lmc.revalidate_mode_kept (m : Lmc) (h : m.mode = .forced ∨ (m.f.isSome && (m.front.live || m.top.live)) = m.valid) :
    m.revalidate.mode = m.mode := by
  unfold Lmc.revalidate
  dsimp only
  split
  · rfl
  · next hv =>
    rcases h with h | h
    · simp [h]
    · exact absurd h hv

/-- Where valid turns yes outside FORCED, the mode is CURVE (R78). -/
theorem Lmc.revalidate_mode_curve (m : Lmc) (hm : m.mode ≠ .forced) (hv : m.valid = false)
    (h : (m.f.isSome && (m.front.live || m.top.live)) = true) : m.revalidate.mode = .curve := by
  unfold Lmc.revalidate
  simp [h, hv, hm]

/-- LMC with the role refreshed by a sample (R79). -/
def Lmc.refreshed (m : Lmc) (r : LightRole) : Lmc :=
  (m.setRole r { m.role r with live := true, timer := some m.set.lightStale }).revalidate

theorem Lmc.refreshRole_eq (m : Lmc) (r : LightRole) :
    m.refreshRole r = if (m.refreshed r).mode = m.mode then m.refreshed r else (m.refreshed r).recompute := rfl

theorem Lmc.refreshed_role (m : Lmc) (r : LightRole) :
    (m.refreshed r).role r = { m.role r with live := true, timer := some m.set.lightStale } := by simp [Lmc.refreshed]
theorem Lmc.refreshed_role_ne (m : Lmc) {r o : LightRole} (h : o ≠ r) : (m.refreshed r).role o = m.role o := by
  simp [Lmc.refreshed, Lmc.role_setRole_ne _ _ h]
theorem Lmc.refreshed_only (m : Lmc) (r : LightRole) : m.refreshed r = { m with
    front := (m.refreshed r).front, top := (m.refreshed r).top, valid := (m.refreshed r).valid
    mode := (m.refreshed r).mode } := by
  unfold Lmc.refreshed
  rw [Lmc.revalidate_only, Lmc.setRole_only]

/-- With the role refreshed, some role is live. -/
theorem Lmc.setRole_live (m : Lmc) (r : LightRole) (x : LightRecord) (h : x.live = true) :
    ((m.setRole r x).front.live || (m.setRole r x).top.live) = true := by
  cases r <;> simp [Lmc.setRole, h]

theorem Lmc.refreshed_valid (m : Lmc) (r : LightRole) : (m.refreshed r).valid = m.f.isSome := by
  have hf : (m.setRole r { m.role r with live := true, timer := some m.set.lightStale }).f = m.f := by cases r <;> rfl
  rw [Lmc.refreshed, Lmc.revalidate_valid, m.setRole_live _ _ rfl, hf, Bool.and_true]

theorem Lmc.refreshed_mode_kept (m : Lmc) (r : LightRole) (h : m.mode = .forced ∨ m.valid = m.f.isSome) :
    (m.refreshed r).mode = m.mode := by
  rw [Lmc.refreshed, Lmc.revalidate_mode_kept]
  · cases r <;> rfl
  · rw [m.setRole_live _ _ rfl, Bool.and_true]
    refine h.imp (fun h => ?_) fun h => ?_
    · cases r <;> exact h
    · cases r <;> exact h.symm

theorem Lmc.refreshed_mode_curve (m : Lmc) (r : LightRole) (hm : m.mode = .fail) (hv : m.valid = false)
    (hf : m.f.isSome = true) : (m.refreshed r).mode = .curve := by
  refine Lmc.revalidate_mode_curve _ ?_ ?_ ?_
  · cases r <;> simp [Lmc.setRole, hm]
  · cases r <;> exact hv
  · rw [m.setRole_live _ _ rfl, Bool.and_true]
    cases r <;> exact hf

/-- LMC after the sample of a role: its record is live, and no setting, no output and no other record moves (R70, R79). -/
def Lmc.Lit (m m' : Lmc) (r : LightRole) : Prop :=
  (m'.role r).live = true ∧ (m'.role r).timer = some m.set.lightStale ∧ m'.out = m.out
    ∧ (∀ o, o ≠ r → m'.role o = m.role o) ∧ m'.set = m.set

theorem Lmc.refreshed_lit (m : Lmc) (r : LightRole) : m.Lit (m.refreshed r) r := by
  refine ⟨?_, ?_, ?_, fun o ho => m.refreshed_role_ne ho, ?_⟩
  · rw [m.refreshed_role]
  · rw [m.refreshed_role]
  · rw [m.refreshed_only]
  · rw [m.refreshed_only]

theorem Lmc.Lit.recompute {m m' : Lmc} {r : LightRole} (h : m.Lit m' r) : m.Lit m'.recompute r := by
  obtain ⟨hl, ht, ho, hr, hs⟩ := h
  exact ⟨by simpa using hl, by simpa using ht, by simpa using ho, fun o hne => by simpa using hr o hne, by simpa using hs⟩

theorem Lmc.refreshRole_lit (m : Lmc) (r : LightRole) : m.Lit (m.refreshRole r) r := by
  rw [Lmc.refreshRole_eq]
  split
  · exact m.refreshed_lit r
  · exact (m.refreshed_lit r).recompute

theorem Lmc.storeSample_lit (m : Lmc) (r : LightRole) (count range : Nat) : m.Lit (m.storeSample r count range) r := by
  unfold Lmc.storeSample
  refine Lmc.Lit.recompute ⟨by simp, by simp, ?_, fun o ho => by simp [Lmc.role_setRole_ne _ _ ho], ?_⟩
  · rw [Lmc.revalidate_only, Lmc.measure_only]; cases r <;> rfl
  · rw [Lmc.revalidate_only, Lmc.measure_only]; cases r <;> rfl

/-- What a sample during a freeze may touch: the role, valid, and through a change of mode the target (R79, R81). -/
theorem Lmc.refreshRole_frozen (m : Lmc) (r : LightRole) :
    ((m.refreshRole r).role r).lux = (m.role r).lux ∧ (m.refreshRole r).e = m.e ∧ (m.refreshRole r).lg = m.lg
      ∧ (m.refreshRole r).f = m.f ∧ (m.refreshRole r).freeze = m.freeze ∧ (m.refreshRole r).valid = m.f.isSome := by
  have hframe : ((m.refreshed r).role r).lux = (m.role r).lux ∧ (m.refreshed r).e = m.e ∧ (m.refreshed r).lg = m.lg
      ∧ (m.refreshed r).f = m.f ∧ (m.refreshed r).freeze = m.freeze ∧ (m.refreshed r).valid = m.f.isSome := by
    refine ⟨by rw [m.refreshed_role], ?_, ?_, ?_, ?_, m.refreshed_valid r⟩ <;> rw [m.refreshed_only]
  rw [Lmc.refreshRole_eq]
  split
  · exact hframe
  · simpa using hframe

theorem Lmc.refreshRole_kept (m : Lmc) (r : LightRole) (h : m.mode = .forced ∨ m.valid = m.f.isSome) :
    m.refreshRole r = m.refreshed r := by
  rw [Lmc.refreshRole_eq, if_pos (m.refreshed_mode_kept r h)]

theorem Lmc.refreshRole_curve (m : Lmc) (r : LightRole) (hm : m.mode = .fail) (hv : m.valid = false)
    (hf : m.f.isSome = true) : m.refreshRole r = (m.refreshed r).recompute := by
  rw [Lmc.refreshRole_eq, if_neg (by simp [m.refreshed_mode_curve r hm hv hf, hm])]

/-- A recomputation of a state whose curve and target record are those of `m` (R81, R96). -/
theorem Lmc.recomputed_of_refreshed (m : Lmc) (r : LightRole) :
    ({ (m.refreshed r).recompute with curve := m.curve, t0 := m.t0, target := m.target } : Lmc).Recomputed
      (m.refreshed r).recompute := by
  have hback : ({ (m.refreshed r).recompute with curve := m.curve, t0 := m.t0, target := m.target } : Lmc) = m.refreshed r := by
    rw [Lmc.recompute_only, m.refreshed_only]
  rw [hback]
  exact Lmc.recompute_recomputed _

theorem State.lightSample_lmc (s : State) (r : LightRole) (b : List Byte) : (s.lightSample r b).lmc =
    if s.lmc.freeze then s.lmc.refreshRole r else s.lmc.storeSample r (u16 b 0) (u8 b 2) := by
  unfold State.lightSample
  split <;> simp

theorem Reached.light_faultFollows {s u : State} (h : Reached s u) (r : LightRole) (b : List Byte) :
    FaultFollows s (u.lightSample r b) := by
  unfold State.lightSample
  split
  · exact h.lightQuiet.faultFollows_lmcEnd _ List.not_mem_nil
  · exact h.lightQuiet.faultFollows_lmcEnd _ List.not_mem_nil

/-! ### The conditions of PPC -/

theorem powerConditions_apart : ∀ e ∈ powerConditions, e ∉ [Event.sampleOverflow]
    ∧ e ∉ Event.ceilingCut :: lightConditions ∧ e ≠ .bridgeExhausted := by
  simp [powerConditions, lightConditions]

/-- A condition that PPC delivers, and that the rest of the command leaves alone, is followed by its event (R139). -/
theorem Reached.follows {s u t : State} (h : Reached s u) {p : Ppc} {ps fs : List Event} {e : Event} {v : Bool}
    (he : e ∈ powerConditions) (hps : e ∉ ps) (hd : Delivers p.conditions e v) (h2 : Told (u.ppcQuiet p ps) t)
    (hfs : (u.ppcQuiet p ps).ntu.onlyEvents fs t.ntu) (hf : e ∉ fs) : ConditionFollows s t e v := by
  have htold : Told s (u.setPpc p) := h.told.trans (.of_same rfl rfl rfl)
  exact htold.conditionFollows h.events (powerConditions_apart e he).1 hd hps h2 hfs hf

theorem Reached.follows_ppcQuiet {s u : State} (h : Reached s u) {p : Ppc} {ps : List Event} {e : Event} {v : Bool}
    (he : e ∈ powerConditions) (hps : e ∉ ps) (hd : Delivers p.conditions e v) :
    ConditionFollows s (u.ppcQuiet p ps) e v :=
  h.follows he hps hd (.refl _) (Ntu.onlyEvents_refl [] _) List.not_mem_nil

/-- A condition of PPC that a settlement delivers is followed by its event (R139). -/
theorem Reached.follows_ppcSettle {s u : State} (h : Reached s u) {p : Ppc} {ps : List Event} {e : Event} {v : Bool}
    (he : e ∈ powerConditions) (hps : e ∉ ps) (hd : Delivers (u.ppcSettle p ps).ppc.conditions e v) :
    ConditionFollows s (u.ppcSettle p ps) e v := by
  obtain ⟨_, hl, hx⟩ := powerConditions_apart e he
  have hmore : ∀ b : Bool, e ∉ ps ++ (if b then [Event.bridgeExhausted] else []) := fun b => by cases b <;> simp [hps, hx]
  rw [State.ppcSettle_ppc] at hd
  unfold State.ppcSettle
  dsimp only
  split
  · exact h.follows_ppcQuiet he (hmore _) hd
  · exact h.follows he (hmore _) hd (.deliverCeiling _ _) (State.deliverCeiling_onlyEvents _ _) hl

theorem Reached.follows_ppcEnd {s u : State} (h : Reached s u) {p : Ppc} {ps : List Event} {e : Event} {v : Bool}
    (he : e ∈ powerConditions) (hps : e ∉ ps) (hd : Delivers (u.ppcEnd p ps).ppc.conditions e v) :
    ConditionFollows s (u.ppcEnd p ps) e v := by
  unfold State.ppcEnd at hd ⊢
  split at hd
  · next hc => rw [if_pos hc]; exact h.follows_ppcQuiet he hps (by simpa using hd)
  · next hc => rw [if_neg hc]; exact h.follows_ppcSettle he hps hd

theorem Ppc.delivers_gaugeStale (p : Ppc) (x : Slot) : Delivers p.conditions (.gaugeStale x) (p.pack x).stale := by
  cases x <;> simp [Delivers, Ppc.conditions, Ppc.pack]
theorem Ppc.delivers_bridgeLow (p : Ppc) : Delivers p.conditions .bridgeLow p.bridge.low := by
  simp [Delivers, Ppc.conditions]
theorem Ppc.delivers_bridgeFault (p : Ppc) : Delivers p.conditions .bridgeFault (p.bridge.last.any (·.fault)) := by
  simp [Delivers, Ppc.conditions]

end Sys2Proof.Machine
end

section
/-! A bridge sample that reaches PPC through the tap (R50, R58, R59). -/

namespace Sys2Proof.Machine

/-- The bridge record with a sample stored and low following it (R50). -/
def Bridge.sampled (b : Bridge) (set : BridgeSettings) (g : BridgeSample) : Bridge :=
  { b with last := some g, low := set.isLow g.charge }

/-- Outside carrying alone, and exhausted, the sample is stored alone (R58). -/
theorem Ppc.bridgeSample_stored (p : Ppc) (g : BridgeSample) (out : Nat)
    (h : p.bridge.alone = false ∨ p.bridge.exhausted = true) :
    p.bridgeSample g out = { p with bridge := p.bridge.sampled p.bridgeSet g } := by
  unfold Ppc.bridgeSample
  dsimp only
  rw [if_neg (by rcases h with h | h <;> simp [h])]
  rfl

/-- While the bridge carries alone the window is computed afresh (R58). -/
theorem Ppc.bridgeSample_computed (p : Ppc) (g : BridgeSample) (out : Nat) (ha : p.bridge.alone = true)
    (hx : p.bridge.exhausted = false) : p.bridgeSample g out = { p with
      bridge := (p.bridge.sampled p.bridgeSet g).withWindow (p.windowMs g.charge (min out p.budget.cPower)) } := by
  unfold Ppc.bridgeSample
  dsimp only
  rw [if_pos (by simp [ha, hx])]
  rfl

/-- What a sample changes of the record: beside sample and low the window and exhaustion alone (R50, R58). -/
theorem Ppc.bridgeSample_only (p : Ppc) (g : BridgeSample) (out : Nat) : p.bridgeSample g out = { p with
    bridge := { p.bridge with last := some g, low := p.bridgeSet.isLow g.charge
                              window := (p.bridgeSample g out).bridge.window
                              exhausted := (p.bridgeSample g out).bridge.exhausted } } := by
  unfold Ppc.bridgeSample
  dsimp only
  split
  · unfold Bridge.withWindow; split <;> rfl
  · rfl

/-- A bridge sample is ignored with no cell fitted, ends quietly, or exhausts the bridge (R50, R59). -/
theorem State.bridgeTap_cases (s : State) (b : List Byte) :
    (s.ppc.bridge.fitted = false ∧ s.bridgeTap b = s)
    ∨ (s.ppc.bridge.fitted = true
        ∧ ((s.ppc.bridgeSample (BridgeSample.ofPayload b) s.lmc.out).bridge.exhausted = true → s.ppc.bridge.exhausted = true)
        ∧ s.bridgeTap b = s.ppcQuiet (s.ppc.bridgeSample (BridgeSample.ofPayload b) s.lmc.out) [])
    ∨ (s.ppc.bridge.fitted = true ∧ s.ppc.bridge.exhausted = false
        ∧ (s.ppc.bridgeSample (BridgeSample.ofPayload b) s.lmc.out).bridge.exhausted = true
        ∧ s.bridgeTap b
          = s.ppcSettle (s.ppc.bridgeSample (BridgeSample.ofPayload b) s.lmc.out).select [.bridgeExhausted]) := by
  unfold State.bridgeTap
  dsimp only
  cases hf : s.ppc.bridge.fitted with
  | false => exact .inl ⟨rfl, by simp⟩
  | true =>
    simp only [Bool.not_true, Bool.false_eq_true, if_false]
    by_cases hx : ((s.ppc.bridgeSample (BridgeSample.ofPayload b) s.lmc.out).bridge.exhausted && !s.ppc.bridge.exhausted) = true
    · rw [if_pos hx]
      simp only [Bool.and_eq_true, Bool.not_eq_true'] at hx
      exact .inr (.inr ⟨trivial, hx.2, hx.1, rfl⟩)
    · rw [if_neg hx]
      exact .inr (.inl ⟨trivial, by simpa using hx, rfl⟩)

/-- A selection run and a settlement at most follow the storing of a bridge sample. -/
theorem State.bridgeTap_selects (s : State) (b : List Byte) (hf : s.ppc.bridge.fitted = true) :
    (s.ppc.bridgeSample (BridgeSample.ofPayload b) s.lmc.out).onlySelection (s.bridgeTap b).ppc := by
  rcases s.bridgeTap_cases b with ⟨h, _⟩ | ⟨_, _, h⟩ | ⟨_, _, _, h⟩
  · rw [hf] at h; cases h
  · rw [h, State.ppcQuiet_ppc]
    exact Ppc.onlySelection_refl _
  · rw [h]
    exact Ppc.onlySelection_trans (Ppc.select_onlySelection _) (State.ppcSettle_onlySelection _ _ _)

theorem Pack.onlySelected_sample {k k' : Pack} (h : k.onlySelected k') : k'.sample = k.sample := by
  rcases h with rfl | ⟨_, rfl⟩ | ⟨_, rfl⟩ <;> rfl

/-- The settled records of PPC are those of the state before the settlement. -/
theorem State.ppcSettle_pack (s : State) (p : Ppc) (ps : List Event) (x : Slot) : (s.ppcSettle p ps).ppc.pack x = p.pack x := by
  rw [State.ppcSettle_ppc]
  cases x <;> rfl

theorem State.bridgeTap_pack_sample (s : State) (b : List Byte) (x : Slot) :
    ((s.bridgeTap b).ppc.pack x).sample = (s.ppc.pack x).sample := by
  have hp : ∀ g o, (s.ppc.bridgeSample g o).pack x = s.ppc.pack x := fun g o => by
    rw [s.ppc.bridgeSample_only g o]; cases x <;> rfl
  rcases s.bridgeTap_cases b with ⟨_, h⟩ | ⟨_, _, h⟩ | ⟨_, _, _, h⟩
  · rw [h]
  · rw [h, State.ppcQuiet_ppc, hp]
  · rw [h, State.ppcSettle_pack, Pack.onlySelected_sample (Ppc.select_pack _ x), hp]

/-- The charge field is 16 bits wide, so that its clamp is the identity (R50). -/
theorem BridgeSample.ofPayload_charge (b : List Byte) : (BridgeSample.ofPayload b).charge = u16 b 2 := by
  have h : u16 b 2 ≤ 65535 := by
    unfold u16 u8
    omega
  simp [BridgeSample.ofPayload, clampNat, Nat.not_lt.2 h]

theorem Ppc.windowMs_eq (p : Ppc) (charge b : Nat) : p.windowMs charge b = swapWindow charge p.bridgeSet.reserve (p.loadAt b) :=
  rfl

/-- Of a safe PPC whose bridge carries alone, no main source is closed and no pack waits (R25, R53). -/
theorem Ppc.safe.alone {p : Ppc} (h : p.safe) (ha : p.bridge.alone = true) : p.bridge.switch = true ∧ p.swDc = false
    ∧ p.dcinOk = false ∧ ∀ x, (p.pack x).switch = false ∧ (p.pack x).state ≠ .online ∧ (p.pack x).state ≠ .standby := by
  obtain ⟨⟨hA, _⟩, ⟨hB, _⟩, _, hdc, _, hwait, _, _, halone, _⟩ := h
  rw [ha, Ppc.carriesAlone, Ppc.mainClosed] at halone
  simp at halone
  obtain ⟨hbr, ⟨hd, hsA⟩, hsB⟩ := halone
  obtain ⟨hwA, hwB⟩ := hwait hd hsA hsB
  rw [hsA] at hA
  rw [hsB] at hB
  refine ⟨hbr, hd, hdc ▸ hd, fun x => ?_⟩
  cases x with
  | a => exact ⟨hsA, fun h => by simpa using hA.2 h, hwA⟩
  | b => exact ⟨hsB, fun h => by simpa using hB.2 h, hwB⟩

/-- With no DC and no pack ONLINE or STANDBY a selection run changes nothing (R33). -/
theorem Ppc.select_idle (p : Ppc) (hd : p.dcinOk = false)
    (h : ∀ x, (p.pack x).state ≠ .online ∧ (p.pack x).state ≠ .standby) : p.select = p := by
  have honline : p.onlineSlot = none := by
    cases ho : p.onlineSlot with
    | none => rfl
    | some y => exact absurd (p.onlineSlot_some y ho) (h y).1
  have hchoose : p.choose = none := by
    cases hc : p.choose with
    | none => rfl
    | some y => exact absurd (p.choose_some y hc).2.1 (h y).2
  unfold Ppc.select
  rw [honline, hchoose]
  simp [hd]

/-- A settlement in which the bridge carries alone and was exhausted before: the record stays and C_power is 0 (R56, R59). -/
theorem Ppc.settle_exhausted (before p : Ppc) (out : Nat) (ha : p.bridge.alone = true) (hc : p.carriesAlone = true)
    (hx : p.bridge.exhausted = true) : before.settle p out = { p with budget := (before.settle p out).budget }
      ∧ (before.settle p out).budget.cPower = 0 := by
  have hmain : before.closedMainSince p = false := by
    simp [Ppc.carriesAlone, Ppc.mainClosed] at hc
    simp [Ppc.closedMainSince, hc]
  have hb1 : before.settleBridge p = p.bridge := by
    have : before.settleBridge p = { p.bridge with alone := p.bridge.alone, exhausted := p.bridge.exhausted } := by
      unfold Ppc.settleBridge
      simp [hc, hmain, ha, hx]
    exact this
  have hw : before.windowStart p = none := by simp [Ppc.windowStart, ha]
  have hb2 : (before.settle p out).bridge = p.bridge := by
    unfold Ppc.settle
    dsimp only
    rw [hw, hb1]
  refine ⟨by rw [before.settle_only p out, hb2], ?_⟩
  show (if (before.settle p out).bridge.exhausted then 0 else _) = 0
  rw [hb2, hx]
  rfl

/-! ### The sample against the tap's frame -/

theorem Reached.follows_bridgeTap {s u : State} (h : Reached s u) {b : List Byte} (hf : u.ppc.bridge.fitted = true) {e : Event}
    {v : Bool} (he : e ∈ powerConditions) (hd : Delivers (u.bridgeTap b).ppc.conditions e v) :
    ConditionFollows s (u.bridgeTap b) e v := by
  rcases u.bridgeTap_cases b with ⟨h', _⟩ | ⟨_, _, h'⟩ | ⟨_, _, _, h'⟩
  · rw [hf] at h'; cases h'
  · rw [h'] at hd ⊢
    exact h.follows_ppcQuiet he List.not_mem_nil (by simpa using hd)
  · rw [h'] at hd ⊢
    exact h.follows_ppcSettle he (by simpa using (powerConditions_apart e he).2.2) hd

theorem Reached.ceiling_bridgeTap {s u : State} (h : Reached s u) {b : List Byte} (hf : u.ppc.bridge.fitted = true) :
    CeilingFollows s (u.bridgeTap b) := by
  intro hs
  have hb : ∀ g o, (u.ppc.bridgeSample g o).budget = s.ppc.budget := fun g o => by
    rw [u.ppc.bridgeSample_only g o, h.ppc]
  rw [← h.lmc]
  rcases u.bridgeTap_cases b with ⟨h', _⟩ | ⟨_, _, h'⟩ | ⟨_, _, _, h'⟩
  · rw [hf] at h'; cases h'
  · rw [h']
    exact h.lightQuiet.delivered_ppcQuiet (hb _ _) hs List.not_mem_nil List.not_mem_nil
  · rw [h']
    exact h.lightQuiet.delivered_ppcSettle (by rw [Ppc.select_budget, hb]) (by simp) (by simp)

/-- The sample is stored and low follows it; the packs' samples stay (R50). -/
theorem State.bridgeTap_stored (s : State) (b : List Byte) (hf : s.ppc.bridge.fitted = true) :
    (s.bridgeTap b).ppc.bridge.last = some (BridgeSample.ofPayload b)
      ∧ ((s.bridgeTap b).ppc.bridge.low = true ↔ u16 b 2 ≤ s.ppc.bridgeSet.compare)
      ∧ ({ s.ppc with bridge := { s.ppc.bridge with last := some (BridgeSample.ofPayload b)
                                                    low := (s.bridgeTap b).ppc.bridge.low } } : Ppc).onlySelection
          (s.bridgeTap b).ppc := by
  have hsel := s.bridgeTap_selects b hf
  have hlow : (s.bridgeTap b).ppc.bridge.low = s.ppc.bridgeSet.isLow (BridgeSample.ofPayload b).charge := by
    rw [hsel, s.ppc.bridgeSample_only]
  refine ⟨by rw [hsel, s.ppc.bridgeSample_only], ?_, Ppc.onlySelection_trans ?_ hsel⟩
  · rw [hlow, BridgeSample.ofPayload_charge]
    simp [BridgeSettings.isLow]
  · rw [hlow, s.ppc.bridgeSample_only]
    rfl

/-- Outside carrying alone, and exhausted, nothing else of PPC changes (R58). -/
theorem State.bridgeTap_quiet (s : State) (b : List Byte) (hf : s.ppc.bridge.fitted = true)
    (h : s.ppc.bridge.alone = false ∨ s.ppc.bridge.exhausted = true) : (s.bridgeTap b).ppc = { s.ppc with
      bridge := { s.ppc.bridge with last := some (BridgeSample.ofPayload b), low := (s.bridgeTap b).ppc.bridge.low } } := by
  have hstored := s.ppc.bridgeSample_stored (BridgeSample.ofPayload b) s.lmc.out h
  rcases s.bridgeTap_cases b with ⟨h', _⟩ | ⟨_, _, h'⟩ | ⟨_, hx, hx', _⟩
  · rw [hf] at h'; cases h'
  · rw [h', State.ppcQuiet_ppc, hstored]
    rfl
  · rw [hstored] at hx'
    exact absurd (hx.symm.trans hx') (by simp)

/-- While the bridge carries alone: the window is RUNNING with what the charge gives, or the bridge is exhausted with C_power 0
(R58, R59). -/
theorem State.bridgeTap_alone (s : State) (b : List Byte) (hf : s.ppc.bridge.fitted = true) (ha : s.ppc.bridge.alone = true)
    (hx : s.ppc.bridge.exhausted = false) (hs : s.ppc.safe) (w : Nat)
    (hw : w = swapWindow (u16 b 2) s.ppc.bridgeSet.reserve (s.ppc.loadAt (min s.lmc.out s.ppc.budget.cPower))) :
    (s.bridgeTap b).ppc.bridge.holds w
      ∧ (s.bridgeTap b).ppc = { s.ppc with
          bridge := { s.ppc.bridge with last := some (BridgeSample.ofPayload b), low := (s.bridgeTap b).ppc.bridge.low
                                        window := (s.bridgeTap b).ppc.bridge.window
                                        exhausted := (s.bridgeTap b).ppc.bridge.exhausted }
          budget := (s.bridgeTap b).ppc.budget }
      ∧ (w = 0 → (s.bridgeTap b).ppc.budget.cPower = 0
          ∧ ∃ p, s.bridgeTap b = s.ppcSettle p [.bridgeExhausted])
      ∧ (0 < w → (s.bridgeTap b).ppc.budget = s.ppc.budget) := by
  have hcomp := s.ppc.bridgeSample_computed (BridgeSample.ofPayload b) s.lmc.out ha hx
  rw [BridgeSample.ofPayload_charge, Ppc.windowMs_eq, ← hw] at hcomp
  clear hw
  by_cases hw0 : w = 0
  · subst hw0
    obtain ⟨hbr, hd, hdc, hpack⟩ := hs.alone ha
    have hbridge : (s.ppc.bridgeSample (BridgeSample.ofPayload b) s.lmc.out).bridge
        = { s.ppc.bridge.sampled s.ppc.bridgeSet (BridgeSample.ofPayload b) with window := .none, exhausted := true } := by
      rw [hcomp]; rfl
    have hsel : (s.ppc.bridgeSample (BridgeSample.ofPayload b) s.lmc.out).select
        = s.ppc.bridgeSample (BridgeSample.ofPayload b) s.lmc.out := by
      refine Ppc.select_idle _ (by rw [hcomp]; exact hdc) fun x => ?_
      rw [hcomp]
      cases x with
      | a => exact ⟨(hpack .a).2.1, (hpack .a).2.2⟩
      | b => exact ⟨(hpack .b).2.1, (hpack .b).2.2⟩
    have hcarries : (s.ppc.bridgeSample (BridgeSample.ofPayload b) s.lmc.out).carriesAlone = true := by
      have hA : s.ppc.packA.switch = false := (hpack .a).1
      have hB : s.ppc.packB.switch = false := (hpack .b).1
      rw [hcomp]
      simp [Ppc.carriesAlone, Ppc.mainClosed, Bridge.sampled, hbr, hd, hA, hB]
    rcases s.bridgeTap_cases b with ⟨h', _⟩ | ⟨_, hx', _⟩ | ⟨_, _, _, h'⟩
    · rw [hf] at h'; cases h'
    · exact absurd (hx' (by rw [hbridge])) (by simp [hx])
    · obtain ⟨hset, hc⟩ := Ppc.settle_exhausted s.ppc (s.ppc.bridgeSample (BridgeSample.ofPayload b) s.lmc.out) s.lmc.out
        (by rw [hbridge]; exact ha) hcarries (by rw [hbridge])
      have hppc := State.ppcSettle_ppc s (s.ppc.bridgeSample (BridgeSample.ofPayload b) s.lmc.out) [.bridgeExhausted]
      rw [hsel] at h'
      rw [h']
      refine ⟨⟨fun h => absurd h (lt_irrefl _), fun _ => ?_⟩, ?_, fun _ => ⟨?_, _, rfl⟩, fun h => absurd h (lt_irrefl _)⟩
      · rw [hppc, hset, hbridge]
        exact ⟨rfl, rfl⟩
      · rw [hppc, hset, hcomp]
        rfl
      · rw [hppc]
        exact hc
  · have hbridge : (s.ppc.bridgeSample (BridgeSample.ofPayload b) s.lmc.out).bridge
        = { s.ppc.bridge.sampled s.ppc.bridgeSet (BridgeSample.ofPayload b) with window := .running w } := by
      rw [hcomp]
      simp [Bridge.withWindow, hw0]
    rcases s.bridgeTap_cases b with ⟨h', _⟩ | ⟨_, _, h'⟩ | ⟨_, _, hx', _⟩
    · rw [hf] at h'; cases h'
    · rw [h', State.ppcQuiet_ppc]
      refine ⟨⟨fun _ => ?_, fun h => absurd h hw0⟩, ?_, fun h => absurd h hw0, fun _ => by rw [hcomp]⟩
      · rw [hbridge]
        exact ⟨rfl, hx⟩
      · rw [hbridge, hcomp]
        simp [Bridge.withWindow, hw0, Bridge.sampled]
    · rw [hbridge] at hx'
      exact absurd (hx.symm.trans hx') (by simp)

/-- An exhaustion by a sample occurs (R59). -/
theorem Reached.occurred_ppcSettle {s u : State} (h : Reached s u) (hlen : s.ntu.table.length = 32) (p : Ppc) {ps : List Event}
    {e : Event} (he : e ∈ ps) : Occurred s (u.ppcSettle p ps) e := by
  have hset : ∀ q : Ppc, Told s (u.setPpc q) := fun q => h.told.trans (.of_same rfl rfl rfl)
  unfold State.ppcSettle
  dsimp only
  split
  · exact Told.occurred_of_pulse (u.setPpc _) _ (hset _) hlen (List.mem_append_left _ he) (.refl _)
  · exact Told.occurred_of_pulse (u.setPpc _) _ (hset _) hlen (List.mem_append_left _ he) (.deliverCeiling _ _)

end Sys2Proof.Machine
end

section
/-! A gauge sample that reaches PPC through the tap (R27 to R33, R41): what it keeps through the runs of selection that may
follow it. -/

namespace Sys2Proof.Machine

/-! ### One record -/

/-- The record holds the sample, of age 0 and not stale (R27). -/
def Pack.holdsSample (k : Pack) (g : GaugeSample) : Prop := k.sample = some g ∧ k.age = some 0 ∧ k.stale = false

theorem Pack.reallow_only (k : Pack) (f : PackProfile) : k.reallow f = { k with allowance := (k.reallow f).allowance } := by
  unfold Pack.reallow
  split <;> rfl

theorem Pack.holdsSample.reallow {k : Pack} {g : GaugeSample} (h : k.holdsSample g) (f : PackProfile) :
    (k.reallow f).holdsSample g := by
  rw [k.reallow_only f]; exact h

theorem Pack.store_holds (k : Pack) (f : PackProfile) (g : GaugeSample) : (k.store f g).holdsSample g := by
  unfold Pack.store
  dsimp only
  split
  · exact Pack.holdsSample.reallow ⟨rfl, rfl, rfl⟩ f
  · exact ⟨rfl, rfl, rfl⟩

theorem Pack.holdsSample.selected {k k' : Pack} {g : GaugeSample} (h : k.holdsSample g) (hk : k.onlySelected k') :
    k'.holdsSample g := by
  rcases hk with rfl | ⟨_, rfl⟩ | ⟨_, rfl⟩ <;> exact h

theorem Pack.holdsSample.releaseLock {k : Pack} {g : GaugeSample} (h : k.holdsSample g) (idle : Bool) :
    (k.releaseLock idle).holdsSample g := by
  unfold Pack.releaseLock
  split <;> exact h

@[simp] theorem Pack.releaseLock_state (k : Pack) (idle : Bool) : (k.releaseLock idle).state = k.state := by
  unfold Pack.releaseLock
  split <;> rfl

/-- Where the switch shows the state, a record that is selected twice is selected once: standing down undoes the closing. -/
theorem Pack.onlySelected_trans {a b c : Pack} (hs : a.switch = true ↔ a.state = .online) (h1 : a.onlySelected b)
    (h2 : b.onlySelected c) : a.onlySelected c := by
  rcases h1 with rfl | ⟨ha, rfl⟩ | ⟨ha, rfl⟩
  · exact h2
  · rcases h2 with rfl | ⟨hb, _⟩ | ⟨_, rfl⟩
    · exact .inr (.inl ⟨ha, rfl⟩)
    · cases hb
    · have hoff : a.switch = false := by simpa [ha] using hs
      exact .inl (by rw [← ha, ← hoff])
  · rcases h2 with rfl | ⟨_, rfl⟩ | ⟨hb, _⟩
    · exact .inr (.inr ⟨ha, rfl⟩)
    · have hon : a.switch = true := hs.2 ha
      exact .inl (by rw [← ha, ← hon])
    · cases hb

/-- Selection, once or more: the sample stays, and where the switch shows the state the record is closed or stands down at
most. -/
def Pack.reselected (k k' : Pack) : Prop :=
  k'.sample = k.sample ∧ ((k.switch = true ↔ k.state = .online) → k.onlySelected k')

theorem Pack.reselected_of_selected {k k' : Pack} (h : k.onlySelected k') : k.reselected k' :=
  ⟨Pack.onlySelected_sample h, fun _ => h⟩

theorem Pack.reselected_trans {a b c : Pack} (h1 : a.reselected b) (h2 : b.reselected c) : a.reselected c := by
  obtain ⟨hs1, ho1⟩ := h1
  obtain ⟨hs2, ho2⟩ := h2
  refine ⟨hs2.trans hs1, fun hs => Pack.onlySelected_trans hs (ho1 hs) (ho2 ?_)⟩
  rcases ho1 hs with rfl | ⟨_, rfl⟩ | ⟨_, rfl⟩
  · exact hs
  · simp
  · simp

/-! ### The records through a gauge sample -/

/-- The sample stands in slot `x`, the other slot was selected at most, and no setting, no input and no budget moved. -/
structure Ppc.Gauged (p q : Ppc) (x : Slot) (g : GaugeSample) : Prop where
  only : p.onlySelection q
  budget : q.budget = p.budget
  own : (q.pack x).holdsSample g
  other : (p.pack (otherSlot x)).reselected (q.pack (otherSlot x))

variable {p q : Ppc} {x : Slot} {g : GaugeSample}

theorem Ppc.Gauged.setPack (h : p.Gauged q x g) {k : Pack} (hk : k.holdsSample g) : p.Gauged (q.setPack x k) x g where
  only := Ppc.onlySelection_trans h.only (q.setPack_onlySelection x k)
  budget := by rw [Ppc.setPack_budget, h.budget]
  own := by rwa [Ppc.pack_setPack]
  other := by rw [Ppc.pack_setPack_other]; exact h.other

theorem Ppc.Gauged.select (h : p.Gauged q x g) : p.Gauged q.select x g where
  only := Ppc.onlySelection_trans h.only q.select_onlySelection
  budget := by rw [Ppc.select_budget, h.budget]
  own := h.own.selected (q.select_pack x)
  other := Pack.reselected_trans h.other (Pack.reselected_of_selected (q.select_pack _))

theorem Ppc.transferFrom_budget (p : Ppc) (x : Slot) (k : Pack) : (p.transferFrom x k).budget = p.budget := by
  simp [Ppc.transferFrom]

/-- A pack enters FAULT with its sample (R31). -/
theorem Ppc.Gauged.enterFault (h : p.Gauged q x g) (c : FaultCause) (idle : Bool) : p.Gauged (q.enterFault x c idle) x g := by
  have hk : ({ q.pack x with state := PackState.fault, switch := false, faultCause := some c, qualTimer := none
                             staleTimer := none }.releaseLock idle).holdsSample g := by
    apply Pack.holdsSample.releaseLock
    exact h.own
  unfold Ppc.enterFault
  refine ⟨Ppc.onlySelection_trans h.only (Ppc.leave_onlySelection _ _ _), ?_, ?_,
    Pack.reselected_trans h.other (Pack.reselected_of_selected (Ppc.leave_other _ _ _ (by simp) (by simp)))⟩
  · rw [Ppc.select_budget]
    split
    · rw [Ppc.transferFrom_budget, h.budget]
    · rw [Ppc.setPack_budget, h.budget]
  · rw [Ppc.leave_pack _ _ _ (by simp) (by simp)]
    exact hk

/-- The events that a gauge sample of slot `x` may raise (R28, R30, R41). -/
def gaugePulses (x : Slot) : List Event := [.packReady x, .packFault x, .swapReady]

theorem Ppc.Gauged.qualify (h : p.Gauged q x g) (idle : Bool) :
    p.Gauged (q.qualify x g idle).1 x g ∧ ∀ e ∈ (q.qualify x g idle).2, e ∈ gaugePulses x := by
  unfold Ppc.qualify
  dsimp only
  split
  · split
    · refine ⟨Ppc.Gauged.select (h.setPack (Pack.holdsSample.reallow ?_ _)), by simp [gaugePulses]⟩
      exact h.own
    · exact ⟨h.setPack h.own, by simp⟩
  · have hreset : p.Gauged (q.setPack x { q.pack x with qual := 0 }) x g := h.setPack h.own
    split
    · exact ⟨hreset.enterFault _ _, by simp [gaugePulses]⟩
    · exact ⟨hreset, by simp⟩

theorem Ppc.Gauged.confirm (h : p.Gauged q x g) (idle : Bool) :
    p.Gauged (q.confirm x idle).1 x g ∧ ∀ e ∈ (q.confirm x idle).2, e ∈ gaugePulses x := by
  unfold Ppc.confirm
  dsimp only
  split
  · refine ⟨Ppc.Gauged.select (h.setPack ?_), by simp [gaugePulses]⟩
    exact h.own
  · refine ⟨h.setPack ?_, by simp⟩
    exact h.own

/-- A sample is stored wherever the slot is not EMPTY, and what follows it keeps it (R27). -/
theorem Ppc.gaugeSample_gauged (p : Ppc) (x : Slot) (g : GaugeSample) (idle : Bool) (hx : (p.pack x).state ≠ .empty) :
    p.Gauged (p.gaugeSample x g idle).1 x g ∧ ∀ e ∈ (p.gaugeSample x g idle).2, e ∈ gaugePulses x := by
  have hstore : p.Gauged (p.setPack x ((p.pack x).store p.profile g)) x g :=
    { only := p.setPack_onlySelection x _
      budget := p.setPack_budget x _
      own := by rw [Ppc.pack_setPack]; exact Pack.store_holds _ _ _
      other := by rw [Ppc.pack_setPack_other]; exact Pack.reselected_of_selected (Pack.onlySelected_refl _) }
  have hre : p.Gauged ((p.setPack x ((p.pack x).store p.profile g)).setPack x
      (((p.setPack x ((p.pack x).store p.profile g)).pack x).reallow p.profile)) x g :=
    hstore.setPack (Pack.holdsSample.reallow hstore.own _)
  have hserve : p.Gauged (if (p.pack x).state = .online
      then ((p.setPack x ((p.pack x).store p.profile g)).setPack x
        (((p.setPack x ((p.pack x).store p.profile g)).pack x).reallow p.profile)).select
      else (p.setPack x ((p.pack x).store p.profile g)).setPack x
        (((p.setPack x ((p.pack x).store p.profile g)).pack x).reallow p.profile)) x g := by
    split
    · exact hre.select
    · exact hre
  unfold Ppc.gaugeSample
  dsimp only
  split
  · next h => exact absurd h hx
  · refine Ppc.Gauged.qualify (Ppc.Gauged.select (hstore.setPack ?_)) idle
    exact hstore.own
  · exact hstore.qualify idle
  · split
    · exact ⟨hstore.enterFault _ _, by simp [gaugePulses]⟩
    · exact ⟨hserve, by simp⟩
  · split
    · exact ⟨hstore.enterFault _ _, by simp [gaugePulses]⟩
    · exact ⟨hserve, by simp⟩
  · split
    · exact hstore.confirm idle
    · exact ⟨hstore, by simp⟩
  · exact ⟨hstore, by simp⟩
  · exact ⟨hstore, by simp⟩

theorem Ppc.gaugeSample_empty (p : Ppc) (x : Slot) (g : GaugeSample) (idle : Bool) (hx : (p.pack x).state = .empty) :
    p.gaugeSample x g idle = (p, []) := by
  unfold Ppc.gaugeSample
  dsimp only
  rw [hx]

/-! ### The event -/

/-- What a gauge sample leaves of PPC before its settlement, with the events that it raises. -/
def State.gauged (s : State) (x : Slot) (b : List Byte) : Ppc × List Event :=
  s.ppc.gaugeSample x (GaugeSample.ofPayload b) s.idlePhase

theorem State.gaugeTap_cases (s : State) (x : Slot) (b : List Byte) :
    (s.gaugeTap x b = s.ppcSettle (s.gauged x b).1 (s.gauged x b).2 ∧ (s.ppc.pack x).state = .online)
      ∨ s.gaugeTap x b = s.ppcEnd (s.gauged x b).1 (s.gauged x b).2 := by
  unfold State.gaugeTap
  dsimp only
  split
  · next h => exact .inl ⟨rfl, h⟩
  · exact .inr rfl

theorem State.gaugeTap_pack (s : State) (x y : Slot) (b : List Byte) :
    (s.gaugeTap x b).ppc.pack y = (s.gauged x b).1.pack y := by
  rcases s.gaugeTap_cases x b with ⟨h, _⟩ | h
  · rw [h, State.ppcSettle_pack]
  · rw [h, State.ppcEnd_ppc_pack]

theorem State.gaugeTap_selects (s : State) (x : Slot) (b : List Byte) :
    (s.gauged x b).1.onlySelection (s.gaugeTap x b).ppc := by
  rcases s.gaugeTap_cases x b with ⟨h, _⟩ | h
  · rw [h]; exact s.ppcSettle_onlySelection _ _
  · rw [h]; exact s.ppcEnd_onlySelection _ _

/-- A gauge sample of an EMPTY slot changes nothing of PPC (R27). -/
theorem State.gaugeTap_empty (s : State) (x : Slot) (b : List Byte) (hx : (s.ppc.pack x).state = .empty) :
    (s.gaugeTap x b).ppc = s.ppc ∧ (s.gaugeTap x b).lmc = s.lmc := by
  rcases s.gaugeTap_cases x b with ⟨_, h⟩ | h
  · rw [hx] at h; cases h
  · have hg : s.gauged x b = (s.ppc, []) := s.ppc.gaugeSample_empty x _ _ hx
    rw [h, hg, State.ppcEnd, if_pos rfl]
    simp

theorem State.gauged_budget (s : State) (x : Slot) (b : List Byte) : (s.gauged x b).1.budget = s.ppc.budget := by
  by_cases hx : (s.ppc.pack x).state = .empty
  · rw [State.gauged, s.ppc.gaugeSample_empty x _ _ hx]
  · exact (s.ppc.gaugeSample_gauged x _ _ hx).1.budget

theorem State.gauged_pulses (s : State) (x : Slot) (b : List Byte) : ∀ e ∈ (s.gauged x b).2, e ∈ gaugePulses x := by
  by_cases hx : (s.ppc.pack x).state = .empty
  · rw [State.gauged, s.ppc.gaugeSample_empty x _ _ hx]
    simp
  · exact (s.ppc.gaugeSample_gauged x _ _ hx).2

theorem State.gauged_onlySelection (s : State) (x : Slot) (b : List Byte) : s.ppc.onlySelection (s.gauged x b).1 := by
  by_cases hx : (s.ppc.pack x).state = .empty
  · rw [State.gauged, s.ppc.gaugeSample_empty x _ _ hx]
    exact Ppc.onlySelection_refl _
  · exact (s.ppc.gaugeSample_gauged x _ _ hx).1.only

theorem State.gauged_other (s : State) (x : Slot) (b : List Byte) :
    (s.ppc.pack (otherSlot x)).reselected ((s.gauged x b).1.pack (otherSlot x)) := by
  by_cases hx : (s.ppc.pack x).state = .empty
  · rw [State.gauged, s.ppc.gaugeSample_empty x _ _ hx]
    exact Pack.reselected_of_selected (Pack.onlySelected_refl _)
  · exact (s.ppc.gaugeSample_gauged x _ _ hx).1.other

theorem Reached.ceiling_gaugeTap {s u : State} (h : Reached s u) (x : Slot) (b : List Byte) :
    CeilingFollows s (u.gaugeTap x b) := by
  intro hs
  have hb : (u.gauged x b).1.budget = s.ppc.budget := by rw [u.gauged_budget, h.ppc]
  have hno : ∀ e, e ∉ gaugePulses x → e ∉ (u.gauged x b).2 := fun e he hm => he (u.gauged_pulses x b e hm)
  rw [← h.lmc]
  rcases u.gaugeTap_cases x b with ⟨h', _⟩ | h'
  · rw [h']
    exact h.lightQuiet.delivered_ppcSettle (by rw [hb]) (hno _ (by simp [gaugePulses])) (hno _ (by simp [gaugePulses]))
  · rw [h']
    exact h.lightQuiet.delivered_ppcEnd hb hs (hno _ (by simp [gaugePulses])) (hno _ (by simp [gaugePulses]))

/-- GAUGE_STALE falls with the sample (R27, R32, R139). -/
theorem Reached.follows_gaugeTap {s u : State} (h : Reached s u) (x : Slot) (b : List Byte)
    (hx : (u.ppc.pack x).state ≠ .empty) : ConditionFollows s (u.gaugeTap x b) (.gaugeStale x) false := by
  have he : Event.gaugeStale x ∈ powerConditions := by cases x <;> simp [powerConditions]
  have hps : Event.gaugeStale x ∉ (u.gauged x b).2 := fun hm => by simpa [gaugePulses] using u.gauged_pulses x b _ hm
  have hd := (u.gaugeTap x b).ppc.delivers_gaugeStale x
  have hstale : ((u.gaugeTap x b).ppc.pack x).stale = false := by
    rw [State.gaugeTap_pack]
    exact (u.ppc.gaugeSample_gauged x _ _ hx).1.own.2.2
  rw [hstale] at hd
  rcases u.gaugeTap_cases x b with ⟨h', _⟩ | h'
  · rw [h'] at hd ⊢
    exact h.follows_ppcSettle he hps hd
  · rw [h'] at hd ⊢
    exact h.follows_ppcEnd he hps hd

end Sys2Proof.Machine
end

section
/-! An ACCEL sample that reaches MTM through the tap (R54, R79, R107), and the tap delivery as a whole (R6). -/

namespace Sys2Proof.Machine

/-! ### The phase step -/

/-- What an ACCEL sample stores, and the settings, stay through the phase step (R107). -/
structure Mtm.KeepsSample (m m' : Mtm) : Prop where
  lastMag : m'.lastMag = m.lastMag
  accelIndex : m'.accelIndex = m.accelIndex
  live : m'.live = m.live
  staleTimer : m'.staleTimer = m.staleTimer
  set : m'.set = m.set

/-- The phase step keeps what the sample stored, and returns to IDLE from nowhere else (R111 to R117). -/
structure Mtm.Steps (m m' : Mtm) : Prop extends m.KeepsSample m' where
  phase : m'.phase = .idle → m.phase = .idle

theorem Mtm.quietPhaseStep_steps (m : Mtm) (a : Accel) (c : DropContext) : m.Steps (m.quietPhaseStep a c).mtm := by
  unfold Mtm.quietPhaseStep
  split
  · exact ⟨⟨rfl, rfl, rfl, rfl, rfl⟩, fun h => by cases h⟩
  · split
    · split
      · exact ⟨⟨rfl, rfl, rfl, rfl, rfl⟩, fun h => by cases h⟩
      · exact ⟨⟨rfl, rfl, rfl, rfl, rfl⟩, id⟩
    · exact ⟨⟨rfl, rfl, rfl, rfl, rfl⟩, id⟩

theorem Mtm.settleTests_steps (m : Mtm) (mag : Nat) : m.Steps (m.settleTests mag).mtm := by
  have hold : ∀ (m2 : Mtm) (o : SettleOutcome), m.KeepsSample m2 → m.Steps (m2.enterHold o).mtm := fun m2 o h =>
    ⟨⟨h.lastMag, h.accelIndex, h.live, h.staleTimer, h.set⟩, fun hi => by cases hi⟩
  unfold Mtm.settleTests
  dsimp only
  split
  · split
    · exact hold _ _ ⟨rfl, rfl, rfl, rfl, rfl⟩
    · split
      · exact hold _ _ ⟨rfl, rfl, rfl, rfl, rfl⟩
      · exact ⟨⟨rfl, rfl, rfl, rfl, rfl⟩, id⟩
  · split
    · exact hold _ _ ⟨rfl, rfl, rfl, rfl, rfl⟩
    · exact ⟨⟨rfl, rfl, rfl, rfl, rfl⟩, id⟩

/-- SETTLE is entered with its first sample, which does not return to IDLE (R115). -/
theorem Mtm.enterSettle_steps (m m' : Mtm) (h : m.KeepsSample m') (mag : Nat) : m.Steps (m'.enterSettle mag).mtm := by
  unfold Mtm.enterSettle
  dsimp only
  obtain ⟨⟨h1, h2, h3, h4, h5⟩, hp⟩ := Mtm.settleTests_steps { m' with
    phase := .settle, quiet := 0
    settled := if (m'.openRecord?.any fun r => decide (0 < r.bounces)) = true then m'.settled else 0 } mag
  exact ⟨⟨h1.trans h.lastMag, h2.trans h.accelIndex, h3.trans h.live, h4.trans h.staleTimer, h5.trans h.set⟩,
    fun hi => by cases hp hi⟩

theorem Mtm.fallingStep_steps (m : Mtm) (a : Accel) : m.Steps (m.fallingStep a).mtm := by
  unfold Mtm.fallingStep
  dsimp only
  split
  · exact ⟨⟨rfl, rfl, rfl, rfl, rfl⟩, fun h => by cases h⟩
  · split
    · split
      · refine m.enterSettle_steps _ ?_ _
        exact ⟨rfl, rfl, rfl, rfl, rfl⟩
      · split
        · exact ⟨⟨rfl, rfl, rfl, rfl, rfl⟩, fun h => by cases h⟩
        · exact ⟨⟨rfl, rfl, rfl, rfl, rfl⟩, id⟩
    · split
      · exact ⟨⟨rfl, rfl, rfl, rfl, rfl⟩, fun h => by cases h⟩
      · exact ⟨⟨rfl, rfl, rfl, rfl, rfl⟩, id⟩

theorem Mtm.impactStep_steps (m : Mtm) (a : Accel) : m.Steps (m.impactStep a).mtm := by
  unfold Mtm.impactStep
  split
  · exact ⟨⟨rfl, rfl, rfl, rfl, rfl⟩, id⟩
  · exact m.enterSettle_steps m ⟨rfl, rfl, rfl, rfl, rfl⟩ _

theorem Mtm.settleStep_steps (m : Mtm) (a : Accel) : m.Steps (m.settleStep a).mtm := by
  unfold Mtm.settleStep
  split
  · exact ⟨⟨rfl, rfl, rfl, rfl, rfl⟩, fun h => by cases h⟩
  · exact m.settleTests_steps _

theorem Mtm.phaseStep_steps (m : Mtm) (a : Accel) (c : DropContext) : m.Steps (m.phaseStep a c).mtm := by
  have happ : ∀ {m' : Mtm}, (m.onOpen fun r => r.append a.magnitude).Steps m' → m.Steps m' := fun h =>
    ⟨⟨h.lastMag, h.accelIndex, h.live, h.staleTimer, h.set⟩, h.phase⟩
  unfold Mtm.phaseStep
  dsimp only
  split
  · exact happ (Mtm.quietPhaseStep_steps _ a c)
  · exact happ (Mtm.quietPhaseStep_steps _ a c)
  · exact happ (Mtm.fallingStep_steps _ a)
  · exact happ (Mtm.impactStep_steps _ a)
  · exact happ (Mtm.settleStep_steps _ a)

/-- What an ACCEL sample stores at MTM; the phase it leaves is IDLE only if it was (R107). -/
theorem Mtm.accelSample_stores (m : Mtm) (a : Accel) (i : Nat) (c : DropContext) :
    (m.accelSample a i c).mtm.lastMag = some a.magnitude ∧ (m.accelSample a i c).mtm.accelIndex = some i
      ∧ (m.accelSample a i c).mtm.live = true ∧ (m.accelSample a i c).mtm.staleTimer = some m.set.accelStale
      ∧ (m.accelSample a i c).mtm.set = m.set ∧ ((m.accelSample a i c).mtm.phase = .idle → m.phase = .idle) := by
  obtain ⟨⟨h1, h2, h3, h4, h5⟩, h6⟩ := Mtm.phaseStep_steps { m with
    lastMag := some a.magnitude, accelIndex := some i, staleTimer := some m.set.accelStale, live := true } a c
  exact ⟨h1, h2, h3, h4, h5, h6⟩

/-! ### The delivery of the phase -/

theorem Ppc.braceOn_only (p : Ppc) : p.braceOn = { p with
    brace := true, bridge := { p.bridge with switch := p.braceOn.bridge.switch } } := by
  unfold Ppc.braceOn Ppc.closeBridge
  split <;> rfl

theorem State.braceOn_ppc (s : State) : s.braceOn.ppc = { s.ppc with
    brace := s.braceOn.ppc.brace, budget := s.braceOn.ppc.budget
    bridge := { s.ppc.bridge with
      switch := s.braceOn.ppc.bridge.switch, alone := s.braceOn.ppc.bridge.alone, window := s.braceOn.ppc.bridge.window
      exhausted := s.braceOn.ppc.bridge.exhausted } } := by
  have hsel := s.ppcEnd_onlySelection s.ppc.braceOn []
  have hp := s.ppc.braceOn_only
  have hA : s.braceOn.ppc.packA = s.ppc.packA := by
    rw [State.braceOn, State.ppcEnd_ppc_packA, hp]
  have hB : s.braceOn.ppc.packB = s.ppc.packB := by
    rw [State.braceOn, State.ppcEnd_ppc_packB, hp]
  have hd : s.braceOn.ppc.swDc = s.ppc.swDc := by
    rw [State.braceOn, State.ppcEnd_ppc_swDc, hp]
  have ht : s.braceOn.ppc.settleTimer = s.ppc.settleTimer := by
    rw [State.braceOn, State.ppcEnd_ppc_settleTimer, hp]
  have hall : s.braceOn.ppc = { s.ppc with
      packA := s.braceOn.ppc.packA, packB := s.braceOn.ppc.packB, budget := s.braceOn.ppc.budget
      swDc := s.braceOn.ppc.swDc, settleTimer := s.braceOn.ppc.settleTimer, brace := s.braceOn.ppc.brace
      bridge := { s.ppc.bridge with
        switch := s.braceOn.ppc.bridge.switch, alone := s.braceOn.ppc.bridge.alone, window := s.braceOn.ppc.bridge.window
        exhausted := s.braceOn.ppc.bridge.exhausted } } := by
    unfold State.braceOn
    rw [hsel, hp]
  rw [hA, hB, hd, ht] at hall
  exact hall

/-- A phase that is IDLE only if it was is delivered as the beginning of brace and freeze at most (R54, R79, R110). -/
theorem State.deliverPhase_cases (s : State) (old new : Phase) (h : new = .idle → old = .idle) :
    ((s.deliverPhase old new).ppc = s.ppc ∧ (s.deliverPhase old new).lmc = s.lmc)
      ∨ ((s.deliverPhase old new).ppc = s.braceOn.ppc
          ∧ (s.deliverPhase old new).lmc = { s.braceOn.lmc with freeze := true }) := by
  unfold State.deliverPhase
  dsimp only
  split
  · exact .inl ⟨rfl, rfl⟩
  · next hne =>
    split
    · exact .inr ⟨by simp, by simp⟩
    · split
      · next ho hn => exact absurd (h hn) ho
      · exact .inl ⟨rfl, rfl⟩

theorem Reached.onlyBraced {s u : State} (h : Reached s u) (i : Nat) (b : List Byte) : OnlyBraced s (u.accelTap i b) := by
  obtain ⟨_, _, _, _, _, hphase⟩ := u.mtm.accelSample_stores (Accel.ofPayload b) i u.ppc.dropContext
  unfold State.accelTap State.mtmEnd
  generalize hv : (u.setMtm (u.mtm.accelSample (Accel.ofPayload b) i u.ppc.dropContext).mtm).raise _ _ = v
  have hvp : v.ppc = s.ppc := by rw [← hv, State.raise_ppc, ← h.ppc]; rfl
  have hvl : v.lmc = s.lmc := by rw [← hv, State.raise_lmc, ← h.lmc]; rfl
  unfold OnlyBraced
  rcases v.deliverPhase_cases _ _ hphase with ⟨hp, hl⟩ | ⟨hp, hl⟩
  · rw [hp, hl, hvp, hvl]
    exact ⟨rfl, rfl⟩
  · rw [hp, hl, ← hvp, ← hvl]
    refine ⟨v.braceOn_ppc, ?_⟩
    have ht := v.braceOn_onlyTarget
    unfold Lmc.onlyTarget at ht ⊢
    rw [ht]

/-! ### The tap -/

section
variable (s : State) (i : Nat) {x : Sample}

theorem State.tapDeliver_noTap : s.tapDeliver .noTap i x = s := rfl
/-- Another kind than the role takes raises TAP_MISMATCH (R6). -/
theorem State.tapDeliver_mismatch {r : TapRole} (hr : r ≠ .noTap) (hk : x.kindCode ≠ r.kind) :
    s.tapDeliver r i x = s.raise [.tapMismatch] [] := by
  unfold State.tapDeliver
  rw [if_neg hr, if_pos (by simpa using hk)]
theorem State.tapDeliver_accel (hk : x.kindCode = 1) : s.tapDeliver .accel i x = s.accelTap i x.payload := by
  simp [State.tapDeliver, hk, TapRole.kind]
theorem State.tapDeliver_light (r : LightRole) (hk : x.kindCode = 2) :
    s.tapDeliver (lightTap r) i x = s.lightSample r x.payload := by
  cases r <;> simp [State.tapDeliver, hk, TapRole.kind, lightTap]
theorem State.tapDeliver_gauge (y : Slot) (hk : x.kindCode = 3) :
    s.tapDeliver (gaugeRole y) i x = s.gaugeTap y x.payload := by
  cases y <;> simp [State.tapDeliver, hk, TapRole.kind, gaugeRole]
theorem State.tapDeliver_bridge (hk : x.kindCode = 4) : s.tapDeliver .bridge i x = s.bridgeTap x.payload := by
  simp [State.tapDeliver, hk, TapRole.kind]

end

/-- A record of a safe PPC shows its state by its switch (R25). -/
theorem Ppc.safe.switch_iff {p : Ppc} (h : p.safe) (x : Slot) : (p.pack x).switch = true ↔ (p.pack x).state = .online := by
  obtain ⟨⟨hA, _⟩, ⟨hB, _⟩, _⟩ := h
  cases x with
  | a => exact hA
  | b => exact hB

/-- Settles O20: the tap delivers to the engine of its role, from the state that the northbound path leaves. -/
theorem tapDeliversToOneEngine : Obligations.TapDeliversToOneEngine := by
  unfold Obligations.TapDeliversToOneEngine
  intro p f s i e hf hr he
  have hu := s.reached p i e (sampleOf f.body)
  refine ⟨_, congrArg Host.Outcome.next (s.receivePort_matched p f i e hf hr he), ?_⟩
  generalize (s.hunted p).northbound i e (sampleOf f.body) = u at hu ⊢
  generalize sampleOf f.body = x
  refine ⟨fun htap => ?_, fun htap hk => ?_, fun htap hk => ?_, fun y htap hk => ?_, fun htap hk => ?_, fun r htap hk => ?_⟩
  · rw [htap, State.tapDeliver_noTap]
    exact ⟨hu.ppc, hu.lmc, hu.mtm⟩
  · rw [State.tapDeliver_mismatch u i htap hk]
    refine ⟨by simpa using hu.ppc, by simpa using hu.lmc, by simpa using hu.mtm, fun hlen => ?_⟩
    exact Told.occurred_of_pulse u [] hu.told hlen (List.mem_singleton_self _) (.refl _)
  · obtain ⟨h1, h2, h3, h4, h5, _⟩ := u.mtm.accelSample_stores (Accel.ofPayload x.payload) i u.ppc.dropContext
    rw [htap, State.tapDeliver_accel u i hk, ← hu.mtm, State.accelTap, State.mtmEnd_mtm]
    exact ⟨h1, h2, h3, h4, h5, hu.onlyBraced i x.payload⟩
  · rw [htap, State.tapDeliver_gauge u i y hk, ← hu.mtm, ← hu.lmc, ← hu.ppc]
    refine ⟨by simp, u.gaugeTap_onlyTarget _ _, u.gaugeTap_empty _ _, fun hx => ?_,
      Ppc.onlySelection_trans (u.gauged_onlySelection _ _) (u.gaugeTap_selects _ _), ?_, hu.ceiling_gaugeTap _ _,
      hu.follows_gaugeTap _ _, fun hs => ?_⟩
    · rw [State.gaugeTap_pack]
      exact (u.ppc.gaugeSample_gauged y _ _ hx).1.own
    · rw [State.gaugeTap_pack]
      exact (u.gauged_other _ _).1
    · rw [State.gaugeTap_pack]
      exact (u.gauged_other _ _).2 (hs.switch_iff _)
  · have hceil := hu.ceiling_bridgeTap (b := x.payload)
    have hunder : ∀ hfit : u.ppc.bridge.fitted = true, (u.bridgeTap x.payload).ppc.budget.cPower = 0 → s.underCeiling →
        (u.bridgeTap x.payload).lmc.out = 0 := fun hfit hc hun => by
      obtain ⟨hd, _⟩ := id hun
      obtain ⟨_, ho, _⟩ := (hceil hfit hd).cut hun
      rw [ho, hc, Nat.min_zero]
    rw [htap, State.tapDeliver_bridge u i hk, ← hu.mtm, ← hu.lmc, ← hu.ppc]
    refine ⟨by simp, u.bridgeTap_onlyTarget _, fun hfit => ?_, fun hfit => ?_⟩
    · rcases u.bridgeTap_cases x.payload with ⟨_, h⟩ | ⟨h, _⟩ | ⟨h, _⟩
      · rw [h]; exact ⟨rfl, rfl⟩
      · rw [hfit] at h; cases h
      · rw [hfit] at h; cases h
    · obtain ⟨hlast, hlow, hsel⟩ := u.bridgeTap_stored x.payload hfit
      have hfault := (u.bridgeTap x.payload).ppc.delivers_bridgeFault
      rw [hlast] at hfault
      refine ⟨hlast, u.bridgeTap_pack_sample _, hsel, hlow,
        hu.follows_bridgeTap hfit (by simp [powerConditions]) (Ppc.delivers_bridgeLow _),
        hu.follows_bridgeTap hfit (by simp [powerConditions]) hfault, hceil hfit, u.bridgeTap_quiet _ hfit,
        fun ha hx hs => ?_⟩
      obtain ⟨hholds, honly, hzero, hpos⟩ := u.bridgeTap_alone x.payload hfit ha hx hs _ rfl
      refine ⟨hholds, honly, fun hw => ?_, hpos⟩
      obtain ⟨hc, q, hq⟩ := hzero hw
      refine ⟨hc, fun hlen => ?_, hunder hfit hc⟩
      rw [hq]
      exact hu.occurred_ppcSettle hlen q (List.mem_singleton_self _)
  · rw [htap, State.tapDeliver_light u i r hk]
    have hfault := hu.light_faultFollows r x.payload
    have hlmc := u.lightSample_lmc r x.payload
    rw [hu.lmc] at hlmc
    have hlit : s.lmc.Lit (u.lightSample r x.payload).lmc r := by
      rw [hlmc]
      split
      · exact s.lmc.refreshRole_lit r
      · exact s.lmc.storeSample_lit r _ _
    obtain ⟨hlive, htimer, hout, hother, hset⟩ := hlit
    refine ⟨by simpa using hu.ppc, by simpa using hu.mtm, hlive, htimer, hout, hother, hset, hfault, fun hfr => ?_⟩
    rw [if_pos hfr] at hlmc
    obtain ⟨h1, h2, h3, h4, h5, h6⟩ := s.lmc.refreshRole_frozen r
    unfold Retargeted TargetKept
    rw [hlmc]
    refine ⟨h1, h2, h3, h4, h5.trans hfr, h6, fun hm hv hf => ?_, fun hkept => ?_⟩
    · rw [s.lmc.refreshRole_curve r hm hv hf]
      exact ⟨by simpa using s.lmc.refreshed_mode_curve r hm hv hf, s.lmc.recomputed_of_refreshed r⟩
    · rw [s.lmc.refreshRole_kept r hkept]
      refine ⟨s.lmc.refreshed_mode_kept r hkept, ?_⟩
      rw [s.lmc.refreshed_only r]
      exact ⟨rfl, rfl, rfl⟩

end Sys2Proof.Machine
end

section
/-! RESTART (R124, R159 to R162): the blocks as it clears them, the settlement after it, and what the events of that settlement
can be. -/

namespace Sys2Proof.Machine

/-! ### The answer of a served request -/

/-- With no request behind it, the request in progress ends and none is taken (R152, R154). -/
theorem State.answer_rqh_of_empty (s : State) (g : Byte) (st : Status) (p : List Byte) (h : s.rqh.queue = []) :
    (s.answer g st p).rqh = { s.rqh with inProgress := none } := by
  have hcases := ((s.setLki (s.lki.place (.reply { tag := g, status := st, payload := p }))).setRqh
    { s.rqh with inProgress := none }).setLki
      (s.lki.place (.reply { tag := g, status := st, payload := p })).transmit |>.takeRequest_cases
  rcases hcases with ⟨_, _, _, hq, _⟩ | ⟨hsame, _⟩
  · exact absurd (h.symm.trans hq) (by simp)
  · exact congrArg State.rqh hsame

theorem Lki.transmit_notice_none (l : Lki) (h : l.notice = none) : l.transmit.notice = none := by
  rcases l.transmit_cases with ⟨_, h'⟩ | ⟨_, _, _, h'⟩ | ⟨_, _, _, _, _, h'⟩ | ⟨_, _, _, _, _, _, h'⟩ | ⟨_, _, _, _, h'⟩ <;>
    simp [h', h]

/-! ### The blocks -/

/-- The state in which the settlement of RESTART begins: every block cleared but PPC, whose settings the settlement brings. -/
def State.cleared (s : State) : State :=
  { s with
    lki := s.lki.restarted, rqh := { s.rqh with queue := [] }, srt := .factory, lmc := s.lmc.restarted, mtm := s.mtm.restarted
    ntu := Ntu.restarted (liveCodes s.ppc.restarted s.lmc.restarted s.mtm.restarted) }

theorem State.restarted_eq (s : State) : s.restarted = s.cleared.ppcSettle s.ppc.restarted [] := rfl

/-- PPC keeps its records but for the allowance, its switches and its inputs (R47, R65). -/
theorem Ppc.restarted_only (p : Ppc) : p.restarted = { p with
    profile := .factory, power := .factory, bridgeSet := .factory, pBlMax := factoryPBlMax
    packA := { p.packA with allowance := p.restarted.packA.allowance }
    packB := { p.packB with allowance := p.restarted.packB.allowance } } := by
  have hA : p.restarted.packA = p.packA.reallow .factory := rfl
  have hB : p.restarted.packB = p.packB.reallow .factory := rfl
  rw [hA, hB, ← p.packA.reallow_only, ← p.packB.reallow_only]
  rfl

theorem Ppc.restarted_carriesAlone (p : Ppc) : p.restarted.carriesAlone = p.carriesAlone := by
  rw [p.restarted_only]; rfl

theorem Ppc.restarted_closedMainSince (p : Ppc) : p.closedMainSince p.restarted = false := by
  rw [p.restarted_only]
  simp [Ppc.closedMainSince]

theorem Ppc.restarted_bridge (p : Ppc) : p.restarted.bridge = p.bridge := rfl

/-- The settlement of a RESTART finds a safe bridge record as it should be (R56). -/
theorem Ppc.restarted_settle_bridge {p : Ppc} (h : p.bridge.alone = p.carriesAlone) (out : Nat) :
    (p.settle p.restarted out).bridge = p.bridge := by
  have halone : p.restarted.carriesAlone = p.bridge.alone := p.restarted_carriesAlone.trans h.symm
  have hb1 : p.settleBridge p.restarted = p.bridge := by
    have : p.settleBridge p.restarted = { p.bridge with alone := p.bridge.alone, exhausted := p.bridge.exhausted } := by
      unfold Ppc.settleBridge
      simp only [halone, p.restarted_closedMainSince, p.restarted_bridge]
      cases p.bridge.alone <;> simp
    exact this
  have hw : p.windowStart p.restarted = none := by
    unfold Ppc.windowStart
    simp [halone, p.restarted_bridge]
  unfold Ppc.settle
  dsimp only
  rw [hw, hb1]

/-- In FAIL a recomputation moves T0 and T alone (R92, R96). -/
theorem Lmc.recompute_fail {m : Lmc} (h : m.mode = .fail) :
    m.recompute = { m with t0 := m.recompute.t0, target := m.recompute.target } := by
  have hc : m.recompute.curve = m.curve := by rw [m.recompute_curve, Lmc.formT0_fail h]
  rw [m.recompute_only]
  simp only [Lmc.mk.injEq, true_and, and_true]
  rw [← hc]

/-- LMC after the settlement of a RESTART: the factory block, with a ceiling and an output no higher than before (R97, R105). -/
theorem State.restarted_lmc (s : State) : ∃ t0 c target out, s.restarted.lmc = { Lmc.initial with
    t0 := t0, cPower := c, target := target, out := out, regime := s.lmc.regime, stepTimer := s.lmc.stepTimer }
      ∧ out ≤ s.lmc.out := by
  rw [s.restarted_eq, State.ppcSettle_lmc]
  split
  · exact ⟨_, _, _, _, rfl, Nat.le_refl _⟩
  · rw [Lmc.recompute_fail (by rfl)]
    exact ⟨_, _, _, _, rfl, Nat.min_le_left _ _⟩

/-! ### The events -/

theorem State.cleared_fresh (s : State) :
    s.cleared.ntu = Ntu.fresh Event.restarted.code (liveCodes s.ppc.restarted s.lmc.restarted s.mtm.restarted) :=
  Ntu.restarted_eq _

/-- Before the settlement every live flag shows its condition, in the records that RESTART leaves (R149). -/
theorem State.cleared_isLive (s : State) : ∀ c ∈ (s.cleared.setPpc s.ppc.restarted).conditions,
    s.cleared.ntu.isLive c.1 = c.2 :=
  (s.cleared.setPpc s.ppc.restarted).fresh_isLive_condition _

theorem Reached.refl (s : State) : Reached s s := ⟨.refl s, Ntu.onlyEvents_refl _ _, rfl, rfl, rfl⟩

/-- A ceiling delivered where LMC's conditions stand as they are live raises CEILING_CUT at most. -/
theorem State.deliverCeiling_onlyCut (s : State) (c : Nat)
    (h : ∀ d ∈ ({ s.lmc with cPower := c }.recompute : Lmc).conditions, s.ntu.isLive d.1 = d.2) :
    s.ntu.onlyEvents [.ceilingCut] (s.deliverCeiling c).ntu := by
  unfold State.deliverCeiling State.lmcCut State.lmcEnd
  split
  · rw [State.raise_pulses_of_live _ _ _ (by exact h)]
    exact State.raise_onlyEvents (s.setLmc _) [.ceilingCut] []
  · rw [State.raise_of_live _ _ (by exact h)]
    exact Ntu.onlyEvents_refl _ _

/-- BRIDGE_EXHAUSTED, where a settlement exhausts the bridge (R59). -/
def State.exhaustion (s : State) (p : Ppc) : List Event :=
  if (s.ppc.settle p s.lmc.out).bridge.exhausted && !p.bridge.exhausted then [.bridgeExhausted] else []

theorem State.exhaustion_sub (s : State) (p : Ppc) {e : Event} (h : e ∈ s.exhaustion p) : e = .bridgeExhausted := by
  unfold State.exhaustion at h
  split at h
  · exact List.mem_singleton.1 h
  · cases h

/-- A settlement delivers PPC's records, and then, where it changed, the ceiling (R56, R62). -/
theorem State.ppcSettle_cases (s : State) (p : Ppc) (ps : List Event) :
    s.ppcSettle p ps = s.ppcQuiet (s.ppcSettle p ps).ppc (ps ++ s.exhaustion p)
      ∨ s.ppcSettle p ps = (s.ppcQuiet (s.ppcSettle p ps).ppc (ps ++ s.exhaustion p)).deliverCeiling
          (s.ppcSettle p ps).ppc.budget.cPower := by
  by_cases h : (s.ppc.settle p s.lmc.out).budget.cPower = (s.ppc.settle p s.lmc.out).budget.delivered
  · have hq : s.ppcSettle p ps = s.ppcQuiet (s.ppc.settle p s.lmc.out) (ps ++ s.exhaustion p) := by
      unfold State.ppcSettle
      dsimp only
      rw [if_pos h]
      rfl
    refine .inl ?_
    rw [hq, State.ppcQuiet_ppc]
  · refine .inr ?_
    rw [State.ppcSettle_ppc]
    unfold State.ppcSettle
    dsimp only
    rw [if_neg h]
    rfl

/-- The first link of the settlement of a RESTART: PPC's records are delivered. -/
def State.restarting (s : State) : State := s.cleared.ppcQuiet s.restarted.ppc (s.cleared.exhaustion s.ppc.restarted)

theorem State.restarted_cases (s : State) :
    s.restarted = s.restarting ∨ s.restarted = s.restarting.deliverCeiling s.restarted.ppc.budget.cPower :=
  s.cleared.ppcSettle_cases s.ppc.restarted []

theorem State.restarting_onlyEvents (s : State) :
    s.cleared.ntu.onlyEvents (s.cleared.exhaustion s.ppc.restarted ++ powerConditions) s.restarting.ntu :=
  s.cleared.ppcQuiet_onlyEvents _ _

/-- LMC's conditions stand as they are live through the settlement of a RESTART: in FAIL the target record alone moves. -/
theorem State.restarting_lightLive (s : State) (c : Nat) :
    ∀ d ∈ ({ s.restarting.lmc with cPower := c }.recompute : Lmc).conditions, s.restarting.ntu.isLive d.1 = d.2 := by
  intro d hd
  have hlmc : s.restarting.lmc = s.lmc.restarted := s.cleared.ppcQuiet_lmc _ _
  rw [hlmc, Lmc.recompute_fail (by rfl)] at hd
  have hlight : d ∈ s.lmc.restarted.conditions := hd
  have hcode : d.1.code ∉ (s.cleared.exhaustion s.ppc.restarted ++ powerConditions).map Event.code := by
    rw [Event.code_mem_map, List.mem_append]
    simp only [Lmc.conditions, List.mem_cons, List.not_mem_nil, or_false] at hlight
    rintro (h | h)
    · have := State.exhaustion_sub _ _ h
      rcases hlight with rfl | rfl | rfl <;> cases this
    · rcases hlight with rfl | rfl | rfl <;> simp [powerConditions] at h
  rw [(Ntu.onlyEvents_other s.restarting_onlyEvents hcode).2]
  exact s.cleared_isLive d (List.mem_append_left _ (List.mem_append_right _ hlight))

/-- The events of the second link: CEILING_CUT at most. -/
theorem State.restarted_onlyCut (s : State) : s.restarting.ntu.onlyEvents [.ceilingCut] s.restarted.ntu := by
  rcases s.restarted_cases with h | h
  · rw [h]; exact Ntu.onlyEvents_refl _ _
  · rw [h]; exact s.restarting.deliverCeiling_onlyCut _ (s.restarting_lightLive _)

/-- The settlement of a RESTART touches the conditions of PPC, CEILING_CUT, and BRIDGE_EXHAUSTED where it exhausts the bridge. -/
theorem State.restarted_onlyEvents (s : State) : s.cleared.ntu.onlyEvents
    (.ceilingCut :: s.cleared.exhaustion s.ppc.restarted ++ powerConditions) s.restarted.ntu :=
  Ntu.onlyEvents_trans (Ntu.onlyEvents_mono s.restarting_onlyEvents fun _ h => List.mem_cons_of_mem _ h)
    (Ntu.onlyEvents_mono s.restarted_onlyCut fun _ h => List.mem_cons.2 (.inl (List.mem_singleton.1 h)))

/-- A condition of PPC that the settlement leaves as it was: its live flag shows it, and its event is not latched (R139, R149). -/
theorem State.restarted_condition (s : State) {e : Event} {v : Bool} (he : e ∈ powerConditions)
    (hd : Delivers s.restarted.ppc.conditions e v) : s.restarted.ntu.isLive e = v
      ∧ ((e, v) ∈ s.ppc.restarted.conditions → s.restarted.ntu.isLatched e = false) := by
  have hfollows : ConditionFollows s.cleared s.restarted e v :=
    (Reached.refl s.cleared).follows_ppcSettle he List.not_mem_nil hd
  obtain ⟨hlive, _, hkeep⟩ := hfollows (Ntu.fresh_length _ _)
  refine ⟨hlive, fun hm => ?_⟩
  have hold : s.cleared.ntu.isLive e = v :=
    s.cleared_isLive (e, v) (List.mem_append_left _ (List.mem_append_left _ hm))
  have hfresh : s.cleared.ntu.isLatched e = false := by
    rw [s.cleared_fresh, Ntu.fresh_isLatched]
    simp only [powerConditions, List.mem_cons, List.not_mem_nil, or_false] at he
    rcases he with rfl | rfl | rfl | rfl | rfl <;> simp
  rw [hkeep (by rw [hold]; cases v <;> simp), hfresh]

/-- The pack records and the last sample of the bridge come through the settlement. -/
theorem State.restarted_selects (s : State) : s.ppc.restarted.onlySelection s.restarted.ppc :=
  s.cleared.ppcSettle_onlySelection _ _
theorem State.restarted_pack (s : State) (x : Slot) : s.restarted.ppc.pack x = s.ppc.restarted.pack x :=
  s.cleared.ppcSettle_pack _ _ x

/-- What a RESTART cannot raise is not latched after it (R149). -/
theorem State.restarted_isLatched (s : State) {e : Event}
    (he : e ∉ [Event.restarted, .bridgeExhausted, .ceilingCut, .bridgeAlone, .bridgeLow]) :
    s.restarted.ntu.isLatched e = false := by
  simp only [List.mem_cons, List.not_mem_nil, or_false, not_or] at he
  obtain ⟨hr, hx, hc, ha, hl⟩ := he
  by_cases hp : e ∈ powerConditions
  · have hcases : (∃ x, e = .gaugeStale x) ∨ e = .bridgeFault := by
      simp only [powerConditions, List.mem_cons, List.not_mem_nil, or_false] at hp
      rcases hp with h | h | h | h | h
      · exact .inl ⟨_, h⟩
      · exact .inl ⟨_, h⟩
      · exact absurd h ha
      · exact absurd h hl
      · exact .inr h
    rcases hcases with ⟨x, rfl⟩ | rfl
    · refine (s.restarted_condition hp (Ppc.delivers_gaugeStale _ x)).2 ?_
      rw [s.restarted_pack]
      exact (s.ppc.restarted.delivers_gaugeStale x).1
    · refine (s.restarted_condition hp (Ppc.delivers_bridgeFault _)).2 ?_
      rw [s.restarted_selects]
      exact s.ppc.restarted.delivers_bridgeFault.1
  · have hother : e ∉ Event.ceilingCut :: s.cleared.exhaustion s.ppc.restarted ++ powerConditions := by
      simp only [List.cons_append, List.mem_cons, List.mem_append, not_or]
      exact ⟨hc, fun h => hx (s.cleared.exhaustion_sub _ h), hp⟩
    rw [(Ntu.onlyEvents_other s.restarted_onlyEvents (mt Event.code_mem_map.1 hother)).1, s.cleared_fresh, Ntu.fresh_isLatched]
    simpa using hr

/-! ### Live flags -/

/-- A delivery leaves the live flags of other events. -/
theorem State.raise_isLive_other (s : State) (ps : List Event) (cs : List (Event × Bool)) {e : Event}
    (h : e ∉ cs.map Prod.fst) : (s.raise ps cs).ntu.isLive e = s.ntu.isLive e := by
  have hlook : (cs.map fun (c : Event × Bool) => (c.1.code, c.2)).lookup e.code = none := by
    rw [List.lookup_eq_none_iff]
    intro c hc
    obtain ⟨d, hd, rfl⟩ := List.mem_map.1 hc
    simp only [bne_iff_ne, ne_eq, Event.code_inj]
    rintro rfl
    exact h (List.mem_map_of_mem hd)
  unfold Ntu.isLive
  rw [State.raise_entry]
  cases s.ntu.table[e.code]? <;> simp [hlook]

/-- A RESTART moves the live flags of PPC's conditions alone. -/
theorem State.restarted_isLive_other (s : State) {e : Event} (he : e ∉ powerConditions) :
    s.restarted.ntu.isLive e = s.cleared.ntu.isLive e := by
  have hquiet : s.restarting.ntu.isLive e = s.cleared.ntu.isLive e :=
    State.raise_isLive_other (s.cleared.setPpc s.restarted.ppc) _ _ he
  rw [← hquiet]
  rcases s.restarted_cases with h | h
  · rw [h]
  · rw [h]
    unfold State.deliverCeiling State.lmcCut State.lmcEnd
    split
    · rw [State.raise_pulses_of_live _ _ _ (by exact s.restarting_lightLive _)]
      exact State.raise_isLive_other (s.restarting.setLmc _) _ [] List.not_mem_nil
    · rw [State.raise_of_live _ _ (by exact s.restarting_lightLive _)]
      rfl

/-- The live flag that a code outside PPC's conditions must show rests on the other owners. -/
theorem State.liveOf_off_power (s : State) {e : Event} (he : e ∉ powerConditions) : s.liveOf e.code
    = (s.lmc.conditions ++ [(Event.motionBlind, !s.mtm.live)]).any fun c => c.1.code == e.code && c.2 := by
  have hppc : (s.ppc.conditions.any fun c => c.1.code == e.code && c.2) = false := by
    rw [List.any_eq_false]
    intro c hc hand
    simp only [Bool.and_eq_true, beq_iff_eq, Event.code_inj] at hand
    obtain ⟨rfl, _⟩ := hand
    exact he (List.mem_map_of_mem (f := Prod.fst) hc)
  unfold State.liveOf State.conditions
  rw [List.append_assoc, List.any_append, hppc, Bool.false_or]

theorem Event.exists_code {k : Nat} (h : k < 32) : ∃ e : Event, e.code = k := by
  have hall : Event.inOrder.map Event.code = List.range 32 := rfl
  obtain ⟨e, _, he⟩ := List.mem_map.1 (hall ▸ List.mem_range.2 h)
  exact ⟨e, he⟩

/-- Of PPC's conditions each is delivered once. -/
theorem Ppc.exists_delivers (p : Ppc) {e : Event} (he : e ∈ powerConditions) : ∃ v, Delivers p.conditions e v := by
  simp only [powerConditions, List.mem_cons, List.not_mem_nil, or_false] at he
  rcases he with rfl | rfl | rfl | rfl | rfl
  · exact ⟨_, p.delivers_gaugeStale .a⟩
  · exact ⟨_, p.delivers_gaugeStale .b⟩
  · exact ⟨p.bridge.alone, by simp [Delivers, Ppc.conditions]⟩
  · exact ⟨_, p.delivers_bridgeLow⟩
  · exact ⟨_, p.delivers_bridgeFault⟩

/-- After a RESTART every live flag shows its condition (R139, R149). -/
theorem State.restarted_isLive (s : State) (e : Event) : s.restarted.ntu.isLive e = s.restarted.liveOf e.code := by
  by_cases he : e ∈ powerConditions
  · obtain ⟨v, hd⟩ := s.restarted.ppc.exists_delivers he
    rw [(s.restarted_condition he hd).1]
    exact (s.restarted.liveOf_condition (e, v) (List.mem_append_left _ (List.mem_append_left _ hd.1))).symm
  · have hlmc : s.restarted.lmc.conditions = s.lmc.restarted.conditions := by
      obtain ⟨_, _, _, _, h, _⟩ := s.restarted_lmc
      rw [h]; rfl
    have hmtm : s.restarted.mtm = s.mtm.restarted := s.cleared.ppcSettle_mtm _ _
    have hfresh := liveCodes_contains (s.cleared.setPpc s.ppc.restarted) e.code
    rw [State.liveOf_off_power _ he] at hfresh
    rw [s.restarted_isLive_other he, State.liveOf_off_power _ he, hlmc, hmtm, s.cleared_fresh, Ntu.fresh_isLive]
    exact hfresh

/-! ### Entries and the notice slot -/

theorem State.restarted_length (s : State) : s.restarted.ntu.table.length = 32 := by
  rw [s.restarted_onlyEvents.2.2.1, s.cleared_fresh, Ntu.fresh_length]

/-- An entry after a RESTART: off, of its default level, live as its condition, and notified only as BRIDGE_EXHAUSTED (R149). -/
theorem State.restarted_entry (s : State) {k : Nat} {e : EventEntry} (he : s.restarted.ntu.table[k]? = some e) :
    e.enable = false ∧ e.level = (hardLevel k).getD 0 ∧ e.live = s.restarted.liveOf k
      ∧ (e.notified = true → k = Event.bridgeExhausted.code ∧ s.restarted.ntu.isLatched .bridgeExhausted = true) := by
  obtain ⟨_, _, hlen, hset, _, hmono⟩ := s.restarted_onlyEvents
  have hk : k < 32 := s.restarted_length ▸ (List.getElem?_eq_some_iff.1 he).1
  obtain ⟨f, rfl⟩ := Event.exists_code hk
  have hd := Ntu.fresh_at Event.restarted.code (liveCodes s.ppc.restarted s.lmc.restarted s.mtm.restarted) hk
  rw [← s.cleared_fresh] at hd
  have hconf := hset f.code
  rw [he, hd] at hconf
  obtain ⟨hen, hlev⟩ := Prod.mk.inj (Option.some.inj hconf)
  have hlive := s.restarted_isLive f
  rw [Ntu.isLive, he, Option.any_some] at hlive
  refine ⟨hen, hlev, hlive, fun hn => ?_⟩
  obtain ⟨_, _, hnew⟩ := hmono f.code _ e hd he
  rcases hnew hn with h | ⟨hlat, hhard | ⟨h, _⟩⟩
  · cases h
  · have hlatched : s.restarted.ntu.isLatched f = true := by simp [Ntu.isLatched, he, hlat]
    by_cases hf : f ∈ [Event.restarted, .bridgeExhausted, .ceilingCut, .bridgeAlone, .bridgeLow]
    · simp only [List.mem_cons, List.not_mem_nil, or_false] at hf
      rcases hf with rfl | rfl | rfl | rfl | rfl
      · cases hhard
      · exact ⟨rfl, hlatched⟩
      · cases hhard
      · cases hhard
      · cases hhard
    · rw [s.restarted_isLatched hf] at hlatched
      cases hlatched
  · rw [hen] at h; cases h

/-- A raising that notifies no entry leaves an empty notice slot empty (R141). -/
theorem State.raise_notice_none (s : State) (ps : List Event) (cs : List (Event × Bool)) (h : s.lki.notice = none)
    (hno : ∀ k, ¬NewlyNotified s (s.raise ps cs) k) : (s.raise ps cs).lki.notice = none := by
  rcases s.raise_cases ps cs with ⟨_, hr⟩ | ⟨hcodes, hr⟩
  · rw [hr]; exact h
  · cases hls : (s.setNtu (s.ntu.raised ps cs)).ntu.eligibleLevels with
    | nil => rw [hr, State.judge, hls]; exact h
    | cons l ls =>
      exfalso
      have hmem : l ∈ (s.ntu.raised ps cs).eligibleLevels := by
        rw [← State.setNtu_ntu s (s.ntu.raised ps cs), hls]
        exact List.mem_cons_self ..
      obtain ⟨⟨e, k⟩, hek, _⟩ := List.mem_map.1 hmem
      obtain ⟨hz, hel⟩ := List.mem_filter.1 hek
      have he : (s.ntu.raised ps cs).table[k]? = some e := List.mem_zipIdx_iff_getElem?.1 hz
      rw [State.raised_entry] at he
      obtain ⟨d, hd, rfl⟩ := Option.map_eq_some_iff.1 he
      have hel' : s.ntu.eligible k (s.raisedEntry ps cs k d) = true :=
        (Ntu.eligible_congr (n := s.ntu) (n' := s.ntu.raised ps cs) rfl rfl k _).symm.trans hel
      obtain ⟨_, hnot, _⟩ := (Ntu.eligible_iff _ _ _).1 hel'
      refine hno k ⟨by rw [hd]; exact congrArg some hnot, ?_⟩
      rw [State.raise_entry, hd]
      simp [hcodes, hel']

/-- Where a RESTART notifies nothing, the notice slot is empty after it (R160). -/
theorem State.restarted_notice_none (s : State)
    (hno : ∀ (k : Nat) (e : EventEntry), s.restarted.ntu.table[k]? = some e → e.notified = false) :
    s.restarted.lki.notice = none := by
  have hlast : ∀ u : State, ¬∃ k, NewlyNotified u s.restarted k := fun u ⟨k, _, hn⟩ => by
    obtain ⟨e, he, hnot⟩ := Option.map_eq_some_iff.1 hn
    rw [hno k e he] at hnot
    cases hnot
  have hfirst : ∀ k, ¬NewlyNotified s.cleared s.restarting k := fun k ⟨_, hn⟩ => by
    obtain ⟨e, he, hnot⟩ := Option.map_eq_some_iff.1 hn
    obtain ⟨_, _, hlen, _, _, hmono⟩ := s.restarted_onlyCut
    have hlt : k < s.restarted.ntu.table.length := hlen ▸ (List.getElem?_eq_some_iff.1 he).1
    have hkeep := (hmono k e _ he (List.getElem?_eq_getElem hlt)).2.1 hnot
    rw [hno k _ (List.getElem?_eq_getElem hlt)] at hkeep
    cases hkeep
  have hquiet : s.restarting.lki.notice = none := State.raise_notice_none (s.cleared.setPpc s.restarted.ppc) _ _ rfl hfirst
  rcases s.restarted_cases with h | h
  · rw [h]; exact hquiet
  · have hnew : ∀ k, ¬NewlyNotified s.restarting (s.restarting.deliverCeiling s.restarted.ppc.budget.cPower) k := fun k hk =>
      hlast s.restarting ⟨k, h ▸ hk⟩
    rw [h]
    unfold State.deliverCeiling State.lmcCut at hnew ⊢
    split at hnew
    · next hc => rw [if_pos hc]; exact State.raise_notice_none (s.restarting.setLmc _) _ _ hquiet hnew
    · next hc => rw [if_neg hc]; exact State.raise_notice_none (s.restarting.setLmc _) _ _ hquiet hnew

end Sys2Proof.Machine
end

section
/-! RESTART as the host sees it (R124, R159 to R162). -/

namespace Sys2Proof.Machine

section
variable {s : State} {tag : Byte}

/-- A RESTART taken in IDLE is carried out and answered with the number of requests discarded (R159, R160). -/
theorem State.serve_restart_granted (h : Serving s .restart tag []) (ht : s.rqh.takenIn = .idle) :
    s.serve .restart restartOwner = s.restarted.answer tag .ok [BitVec.ofNat 8 s.rqh.queue.length] := by
  rw [State.serve_ok s .restart restartOwner tag [] h rfl rfl]
  unfold restartOwner
  rw [if_pos ht]
  rfl

/-- One taken otherwise is refused with MOTION (R159). -/
theorem restartOwner_refused (ht : s.rqh.takenIn ≠ .idle) : restartOwner [] s = ⟨s, .refused, [1#8]⟩ := by
  unfold restartOwner
  rw [if_neg ht]
  rfl

theorem Serving.restartGranted (h : Serving s .restart tag []) (ht : s.rqh.takenIn = .idle) : s.restartGranted = true := by
  have h' : s.rqh.inProgress = some { tag := tag, code := RequestCode.restart.byte, args := [] } := h
  simp [State.restartGranted, ht, h']

end

theorem State.restarted_rqh (s : State) : s.restarted.rqh = { s.rqh with queue := [] } := s.cleared.ppcSettle_rqh _ _

/-- RQH after the answer to a RESTART: empty (R160). -/
theorem State.restart_answer_rqh (s : State) (tag : Byte) (p : List Byte) :
    (s.restarted.answer tag .ok p).rqh = { s.rqh with queue := [], inProgress := none } := by
  rw [State.answer_rqh_of_empty _ _ _ _ (by rw [s.restarted_rqh]), s.restarted_rqh]

/-- A good SAMPLE frame finds the state that a RESTART in progress leaves (R124). -/
theorem State.receivePort_restart {s : State} {tag : Byte} (h : Serving s .restart tag []) (ht : s.rqh.takenIn = .idle)
    (p : PortId) {f : WireFrame} (hf : portFrameGood f = true) :
    s.receivePort p f = (s.serve .restart restartOwner).receivePort p f := by
  have hfinish := s.finishRestart_granted (Serving.restartGranted h ht)
  rw [s.receivePort_after p f hf, hfinish]
  rw [hfinish, State.serve_restart_granted h ht]
  simp [State.restartGranted, State.restart_answer_rqh]

/-! ### LKI -/

theorem State.restarted_onlyNotice (s : State) : s.lki.restarted.onlyNotice s.restarted.lki :=
  s.cleared.ppcSettle_onlyNotice _ _

theorem Lki.restarted_ports (l : Lki) (p : PortId) : l.restarted.ports.get p = { l.ports.get p with
    errors := 0, buffer := (l.ports.get p).buffer.filter (·.begun) } := by
  cases p <;> rfl

/-! ### PPC and LMC -/

theorem State.restarted_bridge {s : State} (h : s.ppc.safe) : s.restarted.ppc.bridge = s.ppc.bridge := by
  obtain ⟨_, _, _, _, _, _, _, _, halone, _⟩ := h
  rw [s.restarted_eq, State.ppcSettle_ppc]
  exact Ppc.restarted_settle_bridge halone _

/-- Of a safe PPC the settlement exhausts no bridge and begins no carrying alone (R56, R59). -/
theorem State.restarted_safe_events {s : State} (h : s.ppc.safe) :
    s.restarted.ntu.isLatched .bridgeExhausted = false ∧ s.restarted.ntu.isLatched .bridgeAlone = false := by
  have hbridge := s.restarted_bridge h
  refine ⟨?_, ?_⟩
  · have hx : s.cleared.exhaustion s.ppc.restarted = [] := by
      obtain ⟨_, _, _, _, _, _, _, _, halone, _⟩ := h
      have : (s.ppc.settle s.ppc.restarted s.cleared.lmc.out).bridge = s.ppc.bridge := Ppc.restarted_settle_bridge halone _
      unfold State.exhaustion
      rw [show s.cleared.ppc = s.ppc from rfl, this, s.ppc.restarted_bridge]
      simp
    have hev := s.restarted_onlyEvents
    rw [hx] at hev
    rw [(Ntu.onlyEvents_other hev (mt Event.code_mem_map.1 (by simp [powerConditions]))).1, s.cleared_fresh,
      Ntu.fresh_isLatched]
    simp
  · have hd : Delivers s.restarted.ppc.conditions .bridgeAlone s.ppc.bridge.alone := by
      rw [← hbridge]
      simp [Delivers, Ppc.conditions]
    exact (s.restarted_condition (by simp [powerConditions]) hd).2 (by simp [Ppc.conditions, Ppc.restarted_bridge])

theorem State.restarted_isLatched_restarted (s : State) : s.restarted.ntu.isLatched .restarted = true := by
  have hother : Event.restarted ∉ Event.ceilingCut :: s.cleared.exhaustion s.ppc.restarted ++ powerConditions := by
    simp only [List.cons_append, List.mem_cons, List.mem_append, not_or]
    exact ⟨by simp, fun h => (by cases s.cleared.exhaustion_sub _ h), by simp [powerConditions]⟩
  rw [(Ntu.onlyEvents_other s.restarted_onlyEvents (mt Event.code_mem_map.1 hother)).1, s.cleared_fresh, Ntu.fresh_isLatched]
  simp

theorem State.restarted_ceiling (s : State) : CeilingDelivered s.lmc.restarted s.cleared s.restarted :=
  (LightQuiet.refl s.cleared).delivered_ppcSettle rfl List.not_mem_nil List.not_mem_nil

/-- Under the ceiling O is cut to what the settlement allows, and CEILING_CUT is latched exactly if it stood above (R97). -/
theorem State.restarted_cut {s : State} (h : s.underCeiling) :
    s.restarted.lmc.cPower = s.restarted.ppc.budget.cPower
      ∧ s.restarted.lmc.out = min s.lmc.out s.restarted.ppc.budget.cPower
      ∧ (s.restarted.ppc.budget.cPower < s.lmc.out → s.restarted.ntu.isLatched .ceilingCut = true)
      ∧ (s.lmc.out ≤ s.restarted.ppc.budget.cPower → s.restarted.ntu.isLatched .ceilingCut = false) := by
  have hceil := s.restarted_ceiling
  have hfresh : s.cleared.ntu.isLatched .ceilingCut = false := by
    rw [s.cleared_fresh, Ntu.fresh_isLatched]
    simp
  obtain ⟨hc, ho, hcut⟩ := CeilingDelivered.cut (s := s.cleared) hceil h
  refine ⟨hc, ho, fun hlt => (hcut (Ntu.fresh_length _ _) hlt).1, fun hle => ?_⟩
  obtain ⟨_, hsame, hnew⟩ := hceil
  by_cases heq : s.restarted.ppc.budget.cPower = s.cleared.ppc.budget.delivered
  · rw [(hsame heq).2, hfresh]
  · obtain ⟨_, _, _, _, hkept⟩ := hnew heq
    rw [hkept hle, hfresh]

/-- Settles O59: what RESTART clears stands in `State.cleared`, and its settlement keeps it but for the records of PPC, the
target record and the events of `restarted_onlyEvents`. -/
theorem restartRestoresAndKeeps : Obligations.RestartRestoresAndKeeps := by
  unfold Obligations.RestartRestoresAndKeeps
  intro s tag hserve
  refine ⟨fun ht => ⟨_, rfl, State.serve_only s .restart restartOwner tag [] _ _ hserve rfl rfl (restartOwner_refused ht)⟩,
    fun ht => ⟨_, rfl, fun p f hf => congrArg Host.Outcome.next (State.receivePort_restart hserve ht p hf)⟩,
    fun ht hreg => ⟨_, congrArg Host.Outcome.next (State.serve_restart_granted hserve ht), ?_⟩⟩
  have hlki := s.restarted_onlyNotice
  have hnorth := s.restarted.answer_onlyNorth tag .ok [BitVec.ofNat 8 s.rqh.queue.length]
  have hsel := s.restarted_selects
  have hpack : ∀ x, s.restarted.ppc.pack x = { s.ppc.pack x with allowance := (s.restarted.ppc.pack x).allowance } := fun x => by
    rw [s.restarted_pack, s.ppc.restarted_only]
    cases x <;> rfl
  have hnotice : s.restarted.ntu.isLatched .bridgeExhausted = false →
      (s.restarted.answer tag .ok [BitVec.ofNat 8 s.rqh.queue.length]).lki.notice = none := fun hx => by
    rw [State.answer_lki]
    refine Lki.transmit_notice_none _ (s.restarted_notice_none fun k e he => ?_)
    obtain ⟨_, _, _, hn⟩ := s.restarted_entry he
    by_contra hnot
    exact absurd ((hn (by simpa using hnot)).2.symm.trans hx) (by simp)
  obtain ⟨t0, c, target, out, hlmc, hout⟩ := s.restarted_lmc
  have hmtm : s.restarted.mtm = s.mtm.restarted := s.cleared.ppcSettle_mtm _ _
  have hsrt : s.restarted.srt = .factory := s.cleared.ppcSettle_srt _ _
  refine ⟨?_, s.restart_answer_rqh tag _, ?_, ?_, ?_, ?_, ?_, ?_, fun hs => ?_, fun p => ?_, ?_, ?_, ?_⟩
  · rw [State.answer_replyTrail, Lki.onlyNotice_replyTrail hlki]
    rfl
  · rw [State.answer_samples, hlki.1]; rfl
  · rw [State.answer_linkErrors, hlki.1]; rfl
  · rw [State.answer_silenceTimeout, hlki.1]; rfl
  · rw [State.answer_silenceTimer, hlki.1]
    show (if _ || s.lki.regime == .unattended then _ else _) = _
    rw [hreg]; rfl
  · rw [State.answer_regime, hlki.1]; exact hreg
  · rw [State.answer_rx, hlki.1]; rfl
  · have hsend := (Lki.onlyNotice_north hlki).2 hs
    rw [hnorth.2 (by rw [hsend]; exact hs), hsend]; rfl
  · rw [State.answer_ports, hlki.1]
    exact s.lki.restarted_ports p
  · rw [State.answer_srt, hsrt]; rfl
  · unfold State.settingsDefault
    rw [State.answer_ppc, State.answer_lmc, State.answer_mtm, hlmc, hmtm, hsel, s.ppc.restarted_only]
    exact ⟨rfl, rfl, rfl, rfl, rfl, rfl, rfl, rfl, rfl⟩
  rw [State.answer_ppc, State.answer_lmc, State.answer_mtm, State.answer_ntu, State.answer_pending]
  have hliveOf : ∀ k, (s.restarted.answer tag .ok [BitVec.ofNat 8 s.rqh.queue.length]).liveOf k = s.restarted.liveOf k :=
    fun k => by simp [State.liveOf, State.conditions]
  have hswDc : s.restarted.ppc.swDc = s.ppc.swDc ∧ s.restarted.ppc.bridge.switch = s.ppc.bridge.switch
      ∧ s.restarted.ppc.settleTimer = s.ppc.settleTimer := by
    rw [s.restarted_eq, State.ppcSettle_ppc]
    exact ⟨rfl, Ppc.settle_switch _ _ _, rfl⟩
  refine ⟨hpack, hswDc.1, hswDc.2.1, ?_, ?_, hswDc.2.2, ?_, s.cleared.ppcSettle_settled _ _, ?_, ?_,
    fun h => State.restarted_bridge h, ?_, ?_, ?_, ?_, ?_, ?_, ?_, ?_, fun r => ?_, s.cleared.ppcSettle_onlyTarget _ _, ?_,
    fun h => State.restarted_cut h, hmtm, s.restarted_length, ?_, ?_, ?_, fun e he => s.restarted_isLatched he,
    fun k e he => ?_, hnotice, fun h => ?_, s.cleared.ppcSettle_pending _ _⟩
  · rw [hsel]; rfl
  · rw [hsel]; rfl
  · rw [hsel]; rfl
  · rw [hsel]; rfl
  · rw [hsel]; rfl
  · rw [hlmc]; rfl
  · rw [hlmc]; rfl
  · rw [hlmc]; rfl
  · rw [hlmc]; rfl
  · rw [hlmc]; rfl
  · rw [hlmc]; rfl
  · rw [hlmc]; rfl
  · rw [hlmc]; rfl
  · rw [hlmc]
    cases r <;> exact ⟨rfl, rfl, rfl⟩
  · rw [hlmc]; exact hout
  · exact s.restarted_isLatched_restarted
  · rw [s.restarted_onlyEvents.1]; rfl
  · rw [s.restarted_onlyEvents.2.1]; rfl
  · obtain ⟨hen, hlev, hlive, hn⟩ := s.restarted_entry he
    exact ⟨hen, hlev, by rw [hliveOf]; exact hlive, fun h => (hn h).1⟩
  · obtain ⟨hx, ha⟩ := State.restarted_safe_events h
    exact ⟨hnotice hx, hx, ha⟩

end Sys2Proof.Machine
end

section
/-! Selection and transfers in the middle of an event of PPC (R33 to R36, R53): what they keep of the bridge record and the
budget, and how they keep the records and the switches in order until the settlement. -/

namespace Sys2Proof.Machine

/-! ### What moves -/

/-- Selection runs and transfers took `p` to `q`: beside pack records and settle timer only the switches moved. -/
structure Ppc.Switched (p q : Ppc) : Prop where
  only : p.onlySelection q
  bridge : q.bridge = { p.bridge with switch := q.bridge.switch }
  budget : q.budget = p.budget

theorem Ppc.Switched.refl (p : Ppc) : p.Switched p := ⟨p.onlySelection_refl, rfl, rfl⟩

theorem Ppc.Switched.trans {p q r : Ppc} (h1 : p.Switched q) (h2 : q.Switched r) : p.Switched r where
  only := Ppc.onlySelection_trans h1.only h2.only
  bridge := by rw [h2.bridge, h1.bridge]
  budget := h2.budget.trans h1.budget

theorem Ppc.Switched.alone {p q : Ppc} (h : p.Switched q) : q.bridge.alone = p.bridge.alone := by rw [h.bridge]
theorem Ppc.Switched.bridgeFitted {p q : Ppc} (h : p.Switched q) : q.bridge.fitted = p.bridge.fitted := by rw [h.bridge]
theorem Ppc.Switched.dcinOk {p q : Ppc} (h : p.Switched q) : q.dcinOk = p.dcinOk := by rw [h.only]
theorem Ppc.Switched.profile {p q : Ppc} (h : p.Switched q) : q.profile = p.profile := by rw [h.only]

theorem Ppc.closeBridge_switched (p : Ppc) : p.Switched p.closeBridge where
  only := p.closeBridge_onlySelection
  bridge := by unfold Ppc.closeBridge; split <;> rfl
  budget := p.closeBridge_budget

theorem Ppc.setPack_switched (p : Ppc) (x : Slot) (k : Pack) : p.Switched (p.setPack x k) where
  only := p.setPack_onlySelection x k
  bridge := by rw [Ppc.setPack_bridge]
  budget := p.setPack_budget x k

theorem Ppc.endTransfer_switched (p : Ppc) (y : Option Slot) : p.Switched (p.endTransfer y) where
  only := p.endTransfer_onlySelection y
  bridge := by rw [Ppc.endTransfer_bridge]
  budget := p.endTransfer_budget y

theorem Ppc.select_switched (p : Ppc) : p.Switched p.select where
  only := p.select_onlySelection
  bridge := by
    rcases p.select_cases with ⟨_, h⟩ | ⟨_, h⟩ | ⟨_, h, _⟩
    · rw [h]; unfold Ppc.selectDc; dsimp only; split <;> rfl
    · rw [h]
    · rw [h]; exact p.closeBridge_switched.bridge
  budget := p.select_budget

theorem Ppc.transferFrom_switched (p : Ppc) (x : Slot) (k : Pack) : p.Switched (p.transferFrom x k) :=
  (p.closeBridge_switched.trans (Ppc.setPack_switched _ x k)).trans (Ppc.endTransfer_switched _ _)

/-- The end of a pack's service: an ONLINE pack leaves by a transfer, any other record is replaced, and selection re-runs
(R31, R40). -/
def Ppc.leave (p : Ppc) (x : Slot) (k : Pack) : Ppc :=
  (if (p.pack x).state = .online then p.transferFrom x k else p.setPack x k).select

theorem Ppc.leave_switched (p : Ppc) (x : Slot) (k : Pack) : p.Switched (p.leave x k) := by
  refine Ppc.Switched.trans ?_ (Ppc.select_switched _)
  split
  · exact p.transferFrom_switched x k
  · exact p.setPack_switched x k

/-- The record of a pack that enters FAULT (R31). -/
def Pack.faulted (k : Pack) (cause : FaultCause) (idle : Bool) : Pack :=
  { k with state := .fault, switch := false, faultCause := some cause, qualTimer := none, staleTimer := none }.releaseLock idle

/-- The record of a pack that enters RELEASING (R40). -/
def Pack.leaving (k : Pack) (f : PackProfile) : Pack :=
  { k with state := .releasing, switch := false, confirmTimer := some f.releaseConfirm }

theorem Ppc.enterFault_eq (p : Ppc) (x : Slot) (cause : FaultCause) (idle : Bool) :
    p.enterFault x cause idle = p.leave x ((p.pack x).faulted cause idle) := rfl

theorem Ppc.enterReleasing_eq (p : Ppc) (x : Slot) : p.enterReleasing x = p.leave x ((p.pack x).leaving p.profile) := rfl

/-! ### Records and switches in order -/

/-- The records and switches in the middle of an event: all that `Ppc.safe` says but that no pack waits and that the bridge
record shows whether the bridge carries alone. -/
structure Ppc.Ordered (p : Ppc) : Prop where
  record : ∀ x, (p.pack x).safe
  single : ∀ x, (p.pack x).switch = true → (p.pack (otherSlot x)).switch = false
  dc : p.swDc = p.dcinOk
  dcOnly : p.swDc = true → ∀ x, (p.pack x).switch = false
  cell : p.bridge.switch = true → p.bridge.fitted = true
  needed : p.bridge.fitted = true → p.bridgeNeeded = true → p.bridge.switch = true
  window : p.bridge.window ≠ .none → p.bridge.alone = true ∧ p.bridge.exhausted = false

/-- No STANDBY pack waits while nothing main is closed (R33). -/
def Ppc.Served (p : Ppc) : Prop := p.mainClosed = false → ∀ x, (p.pack x).state ≠ .standby

/-- What an event leaves before its settlement: records and switches in order, and no pack waiting. -/
structure Ppc.Steady (p : Ppc) : Prop where
  ordered : p.Ordered
  served : p.Served

theorem Slot.forall {P : Slot → Prop} : (∀ x, P x) ↔ P .a ∧ P .b :=
  ⟨fun h => ⟨h .a, h .b⟩, fun ⟨ha, hb⟩ x => by cases x <;> assumption⟩

/-- A safe PPC is one in order, in which no pack waits, with the bridge record in step (R25, R33, R53, R56). -/
theorem Ppc.safe_iff (p : Ppc) : p.safe ↔ p.Steady ∧ p.bridge.alone = p.carriesAlone := by
  have hserved : p.Served ↔ (p.swDc = false → p.packA.switch = false → p.packB.switch = false →
      p.packA.state ≠ .standby ∧ p.packB.state ≠ .standby) := by
    simp [Ppc.Served, Ppc.mainClosed, Slot.forall, Ppc.pack]
  constructor
  · rintro ⟨ha, hb, hone, hdc, honly, hwait, hcell, hneed, halone, hwin⟩
    refine ⟨⟨⟨Slot.forall.2 ⟨ha, hb⟩, Slot.forall.2 ?_, hdc, fun h => Slot.forall.2 (honly h), hcell, hneed, hwin⟩, hserved.2 hwait⟩, halone⟩
    simp only [Ppc.pack, otherSlot]
    exact ⟨fun h => by simpa [h] using hone, fun h => by simpa [h] using hone⟩
  · rintro ⟨⟨⟨hrec, hone, hdc, honly, hcell, hneed, hwin⟩, hwait⟩, halone⟩
    have hA : p.packA.switch = true → p.packB.switch = false := hone .a
    exact ⟨hrec .a, hrec .b, fun ⟨h, h'⟩ => by simp [hA h] at h', hdc, fun h => ⟨honly h .a, honly h .b⟩, hserved.1 hwait, hcell, hneed,
      halone, hwin⟩

theorem Ppc.safe.steady {p : Ppc} (h : p.safe) : p.Steady := ((Ppc.safe_iff p).1 h).1
theorem Ppc.safe.inStep {p : Ppc} (h : p.safe) : p.bridge.alone = p.carriesAlone := ((Ppc.safe_iff p).1 h).2

theorem Ppc.mainClosed_eq_false (p : Ppc) : p.mainClosed = false ↔ p.swDc = false ∧ ∀ x, (p.pack x).switch = false := by
  simp [Ppc.mainClosed, Slot.forall, Ppc.pack, and_assoc]

theorem Ppc.setPack_mainClosed {p : Ppc} {x : Slot} {k : Pack} (h : k.switch = (p.pack x).switch) :
    (p.setPack x k).mainClosed = p.mainClosed := by
  cases x <;> simp_all [Ppc.setPack, Ppc.mainClosed, Ppc.pack]

/-- A pack that leaves a closed switch leaves a closed bridge where one is fitted: `k` may replace the record of slot `x`. -/
structure Ppc.Fits (p : Ppc) (x : Slot) (k : Pack) : Prop where
  safe : k.safe
  opens : k.switch = true → (p.pack x).switch = true
  bridged : (p.pack x).switch = true → k.switch = false → p.bridge.fitted = true → p.bridge.switch = true

theorem Ppc.Ordered.setPack {p : Ppc} (h : p.Ordered) {x : Slot} {k : Pack} (hk : p.Fits x k) : (p.setPack x k).Ordered := by
  have hoff : ∀ y, (p.pack y).switch = false → ((p.setPack x k).pack y).switch = false := fun y hy => by
    by_cases hyx : y = x
    · subst hyx
      rw [Ppc.pack_setPack]
      exact Bool.eq_false_iff.2 fun hk' => by simp [hk.opens hk'] at hy
    · rwa [Ppc.pack_setPack_ne _ _ _ _ hyx]
  refine ⟨fun y => ?_, fun y hy => hoff _ ?_, ?_, fun hd y => hoff _ ?_, ?_, fun hf hn => ?_, ?_⟩
  · by_cases hyx : y = x
    · subst hyx; rw [Ppc.pack_setPack]; exact hk.safe
    · rw [Ppc.pack_setPack_ne _ _ _ _ hyx]; exact h.record y
  · by_contra hcon
    have hyo : (p.pack y).switch = true := by
      by_contra hy'
      simp [hoff y (by simpa using hy')] at hy
    exact hcon (h.single y hyo)
  · rw [Ppc.setPack_swDc, h.dc]; cases x <;> rfl
  · rw [Ppc.setPack_swDc] at hd; exact h.dcOnly hd y
  · rw [Ppc.setPack_bridge]; exact h.cell
  · rw [Ppc.setPack_bridge] at hf ⊢
    by_cases hsame : k.switch = (p.pack x).switch
    · refine h.needed hf ?_
      unfold Ppc.bridgeNeeded at hn ⊢
      rw [Ppc.setPack_mainClosed hsame] at hn
      rw [← hn]; cases x <;> rfl
    · cases hks : k.switch with
      | true => exact absurd (hks.trans (hk.opens hks).symm) hsame
      | false => exact hk.bridged (by simpa [hks] using hsame) hks hf
  · rw [Ppc.setPack_bridge]; exact h.window

theorem Ppc.Ordered.closeBridge {p : Ppc} (h : p.Ordered) : p.closeBridge.Ordered := by
  unfold Ppc.closeBridge
  split
  · next hf => exact ⟨h.record, h.single, h.dc, h.dcOnly, fun _ => hf, fun _ _ => rfl, h.window⟩
  · exact h

/-- SW_BR of a fitted cell is closed after a closing (R35 step 1). -/
theorem Ppc.closeBridge_closed {p : Ppc} (h : p.closeBridge.bridge.fitted = true) : p.closeBridge.bridge.switch = true := by
  unfold Ppc.closeBridge at h ⊢
  split
  · rfl
  · next hf => rw [if_neg hf] at h; exact absurd h hf

theorem Ppc.Ordered.endTransfer_none {p : Ppc} (h : p.Ordered) : (p.endTransfer none).Ordered :=
  ⟨h.record, h.single, h.dc, h.dcOnly, h.cell, h.needed, h.window⟩

theorem Pack.safe.closed {k : Pack} (h : k.safe) (hs : k.state = .standby) : ({ k with state := .online, switch := true } : Pack).safe := by
  obtain ⟨_, hp, hl, hpend, hconf⟩ := h
  simp [hs] at hp hl hpend hconf
  refine ⟨by simp, by simp [hp], by simp [hl], fun hw => ?_, by simp [hconf]⟩
  exact absurd hw (by simp [hpend])

theorem Pack.safe.standDown {k : Pack} (h : k.safe) (hs : k.state = .online) : ({ k with state := .standby, switch := false } : Pack).safe := by
  obtain ⟨_, hp, hl, hpend, hconf⟩ := h
  simp [hs] at hp hl hpend hconf
  refine ⟨by simp, by simp [hp], by simp [hl], fun hw => ?_, by simp [hconf]⟩
  exact absurd hw (by simp [hpend])

/-- The switch of a STANDBY pack closes where no other main source is closed (R35 step 3). -/
theorem Ppc.Ordered.endTransfer_some {p : Ppc} (h : p.Ordered) {y : Slot} (hy : (p.pack y).state = .standby)
    (hd : p.dcinOk = false) (ho : (p.pack (otherSlot y)).switch = false) : (p.endTransfer (some y)).Ordered := by
  have hne : ∀ z, z ≠ y → z = otherSlot y := fun z hz => by cases z <;> cases y <;> simp_all [otherSlot]
  have hsw : ∀ z, ((p.endTransfer (some y)).pack z).switch = true → z = y := fun z hz => by
    by_contra hzy
    rw [Ppc.endTransfer_some_pack_ne _ _ _ hzy, hne z hzy, ho] at hz
    cases hz
  have hdc : (p.endTransfer (some y)).swDc = false := by rw [Ppc.endTransfer_swDc, h.dc, hd]
  refine ⟨fun z => ?_, fun z hz => ?_, ?_, fun hd' => ?_, ?_, fun hf hn => ?_, ?_⟩
  · by_cases hz : z = y
    · subst hz; rw [Ppc.endTransfer_some_pack]; exact (h.record z).closed hy
    · rw [Ppc.endTransfer_some_pack_ne _ _ _ hz]; exact h.record z
  · obtain rfl := hsw z hz
    rw [Ppc.endTransfer_some_pack_ne _ _ _ (otherSlot_ne z)]
    exact ho
  · rw [hdc, (Ppc.endTransfer_switched p _).dcinOk, hd]
  · rw [hdc] at hd'; cases hd'
  · rw [Ppc.endTransfer_bridge]; exact h.cell
  · rw [Ppc.endTransfer_bridge] at hf ⊢
    have hbrace : (p.endTransfer (some y)).brace = p.brace := by rw [(Ppc.endTransfer_switched p _).only]
    have hmain : (p.endTransfer (some y)).mainClosed = true := by
      have : ((p.endTransfer (some y)).pack y).switch = true := by rw [Ppc.endTransfer_some_pack]
      cases y <;> simp_all [Ppc.mainClosed, Ppc.pack]
    refine h.needed hf ?_
    unfold Ppc.bridgeNeeded at hn ⊢
    rw [hbrace, hmain] at hn
    simp at hn
    simp [hn]
  · rw [Ppc.endTransfer_bridge]; exact h.window

theorem Ppc.Ordered.state_of_closed {p : Ppc} (h : p.Ordered) (x : Slot) : (p.pack x).switch = true ↔ (p.pack x).state = .online :=
  (h.record x).1

theorem Ppc.Ordered.open_of_state {p : Ppc} (h : p.Ordered) {x : Slot} (hx : (p.pack x).state ≠ .online) :
    (p.pack x).switch = false :=
  Bool.eq_false_iff.2 fun hs => hx ((h.state_of_closed x).1 hs)

/-- In order, an ONLINE pack carries alone of the main sources (R33). -/
theorem Ppc.Ordered.online {p : Ppc} (h : p.Ordered) {x : Slot} (hx : (p.pack x).state = .online) :
    p.dcinOk = false ∧ p.swDc = false ∧ (p.pack (otherSlot x)).switch = false ∧ (p.pack (otherSlot x)).state ≠ .online := by
  have hs := (h.state_of_closed x).2 hx
  have ho := h.single x hs
  have hd : p.swDc = false := Bool.eq_false_iff.2 fun hd => by simp [h.dcOnly hd x] at hs
  exact ⟨h.dc ▸ hd, hd, ho, fun h' => by simp [(h.state_of_closed _).2 h'] at ho⟩

theorem Ppc.Ordered.onlineSlot {p : Ppc} (h : p.Ordered) {x : Slot} (hx : (p.pack x).state = .online) : p.onlineSlot = some x := by
  cases hs : p.onlineSlot with
  | none => exact absurd hx (p.onlineSlot_none hs x)
  | some y =>
    have hy := p.onlineSlot_some y hs
    have ho := (h.online hx).2.2.2
    cases x <;> cases y <;> simp_all [otherSlot]

/-- A selection run keeps the order, and no pack waits after it (R33). -/
theorem Ppc.Ordered.select {p : Ppc} (h : p.Ordered) : p.select.Steady := by
  have hserved : ∀ q : Ppc, q.Ordered → q.swDc = true ∨ (∃ x, (q.pack x).state = .online) → q.Served := fun q hq hc hm => by
    obtain ⟨hd, hs⟩ := q.mainClosed_eq_false.1 hm
    rcases hc with hc | ⟨x, hx⟩
    · rw [hd] at hc; cases hc
    · exact absurd ((hq.state_of_closed x).2 hx) (by simp [hs x])
  unfold Ppc.select
  cases hd : p.dcinOk with
  | true =>
    have hdc : p.swDc = true := h.dc.trans hd
    have hdown : ∀ x, (p.pack x).standDown = p.pack x := fun x => by
      have : (p.pack x).state ≠ .online := fun hx => by simp [(h.online hx).1] at hd
      simp [Pack.standDown, this]
    have hsame : p.selectDc = p := by
      have ha : p.packA.standDown = p.packA := hdown .a
      have hb : p.packB.standDown = p.packB := hdown .b
      unfold Ppc.selectDc
      simp [hdc, ha, hb]
      rw [← hdc]
    simp only [if_true, hsame]
    exact ⟨h, hserved p h (.inl hdc)⟩
  | false =>
    simp only [Bool.false_eq_true, if_false]
    cases ho : p.onlineSlot with
    | some x =>
      have hx := p.onlineSlot_some x ho
      obtain ⟨_, _, hoff, _⟩ := h.online hx
      dsimp only
      split
      · next hr =>
        simp only [Ppc.rotates, Bool.and_eq_true, beq_iff_eq] at hr
        have hfits : p.closeBridge.Fits x { p.pack x with state := .standby, switch := false } :=
          ⟨(h.record x).standDown hx, by simp, fun _ _ hf => Ppc.closeBridge_closed hf⟩
        have hmid := h.closeBridge.setPack hfits
        have hend := hmid.endTransfer_some (y := otherSlot x)
          (by rw [Ppc.pack_setPack_other, Ppc.closeBridge_pack]; exact hr.1.2)
          (by rw [(Ppc.setPack_switched _ _ _).dcinOk, p.closeBridge_switched.dcinOk, hd])
          (by rw [otherSlot_otherSlot, Ppc.pack_setPack])
        exact ⟨hend, hserved _ hend (.inr ⟨otherSlot x, by rw [Ppc.endTransfer_some_pack]⟩)⟩
      · exact ⟨h, hserved p h (.inr ⟨x, hx⟩)⟩
    | none =>
      have hnone := p.onlineSlot_none ho
      cases hc : p.choose with
      | none => exact ⟨h, fun _ x => p.choose_none hc hd x⟩
      | some y =>
        have hend := h.closeBridge.endTransfer_some (y := y)
          (by rw [Ppc.closeBridge_pack]; exact (p.choose_some y hc).2.1)
          (by rw [p.closeBridge_switched.dcinOk, hd])
          (by rw [Ppc.closeBridge_pack]; exact h.open_of_state (hnone _))
        exact ⟨hend, hserved _ hend (.inr ⟨y, by rw [Ppc.endTransfer_some_pack]⟩)⟩

/-- A transfer to the source that is chosen keeps the order, where no pack switch and no SW_DC is closed (R35). -/
theorem Ppc.Ordered.endTransfer_choose {p : Ppc} (h : p.Ordered) (ho : ∀ x, (p.pack x).switch = false) :
    (p.endTransfer p.choose).Ordered := by
  cases hc : p.choose with
  | none => exact h.endTransfer_none
  | some y =>
    obtain ⟨hd, hy, _⟩ := p.choose_some y hc
    exact h.endTransfer_some hy hd (ho _)

/-- A pack leaves its service in order (R31, R40). -/
theorem Ppc.Ordered.leave {p : Ppc} (h : p.Ordered) {x : Slot} {k : Pack} (hk : k.safe) (hs : k.switch = false) :
    (p.leave x k).Steady := by
  refine Ppc.Ordered.select ?_
  split
  · next hx =>
    have hmid := h.closeBridge.setPack (x := x) (k := k) ⟨hk, by simp [hs], fun _ _ hf => Ppc.closeBridge_closed hf⟩
    refine hmid.endTransfer_choose fun y => ?_
    by_cases hy : y = x
    · subst hy; rw [Ppc.pack_setPack, hs]
    · have hy' : y = otherSlot x := by cases x <;> cases y <;> simp_all [otherSlot]
      rw [hy', Ppc.pack_setPack_other, Ppc.closeBridge_pack]
      exact (h.online hx).2.2.1
  · next hx => exact h.setPack ⟨hk, by simp [hs], fun hc => absurd ((h.state_of_closed x).1 hc) hx⟩

/-! ### The settlement -/

theorem Ppc.carriesAlone_congr {p q : Ppc} (h : q.switches = p.switches) : q.carriesAlone = p.carriesAlone := by
  simp only [Ppc.switches, Prod.mk.injEq] at h
  obtain ⟨h1, h2, h3, h4⟩ := h
  simp [Ppc.carriesAlone, Ppc.mainClosed, h1, h2, h3, h4]

/-- Step 1 of a settlement leaves a window only where the bridge carries alone and is not exhausted (R56). -/
theorem Ppc.settleBridge_window {before p : Ppc}
    (h : p.bridge.window ≠ .none → p.bridge.alone = true ∧ p.bridge.exhausted = false)
    (hw : (before.settleBridge p).window ≠ .none) : p.carriesAlone = true ∧ (before.settleBridge p).exhausted = false := by
  unfold Ppc.settleBridge at hw ⊢
  dsimp only at hw ⊢
  cases hc : p.carriesAlone <;> cases ha : p.bridge.alone <;> simp only [hc, ha, Bool.and_true, Bool.and_false, Bool.not_true,
    Bool.not_false, Bool.false_eq_true, if_true, if_false, ne_eq, not_true_eq_false, false_and, imp_false] at hw h ⊢
  · exact absurd hw h
  · split at hw
    · exact absurd rfl hw
    · next hx => exact ⟨trivial, by simpa using hx⟩
  · exact ⟨trivial, by simp [(h hw).2]⟩

theorem Bridge.withWindow_window {b : Bridge} {ms : Nat} (hb : b.exhausted = false) (h : (b.withWindow ms).window ≠ .none) :
    (b.withWindow ms).exhausted = false := by
  unfold Bridge.withWindow at h ⊢
  split
  · next hm => rw [if_pos hm] at h; exact absurd rfl h
  · exact hb

/-- A settlement leaves a window only where the bridge carries alone and is not exhausted (R58, R59). -/
theorem Ppc.settle_window {before p : Ppc} (out : Nat)
    (h : p.bridge.window ≠ .none → p.bridge.alone = true ∧ p.bridge.exhausted = false)
    (hw : (before.settle p out).bridge.window ≠ .none) :
    p.carriesAlone = true ∧ (before.settle p out).bridge.exhausted = false := by
  cases hs : before.windowStart p with
  | none =>
    have hb : (before.settle p out).bridge = before.settleBridge p := by unfold Ppc.settle; simp only [hs]
    rw [hb] at hw ⊢
    exact Ppc.settleBridge_window h hw
  | some last =>
    have hstart : (p.carriesAlone = true ∧ p.bridge.alone = false) ∧ (before.settleBridge p).exhausted = false := by
      unfold Ppc.windowStart at hs
      split at hs
      · next hc => simpa using hc
      · cases hs
    unfold Ppc.settle at hw ⊢
    simp only [hs] at hw ⊢
    exact ⟨hstart.1.1, Bridge.withWindow_window hstart.2 hw⟩

theorem Ppc.Steady.settle {p : Ppc} (h : p.Steady) (before : Ppc) (out : Nat) : (before.settle p out).safe := by
  have ho := h.ordered
  refine (Ppc.safe_iff _).2 ⟨⟨⟨ho.record, ho.single, ho.dc, ho.dcOnly, ?_, ?_, fun hw => ?_⟩, h.served⟩, ?_⟩
  · rw [Ppc.settle_switch, Ppc.settle_fitted]; exact ho.cell
  · rw [Ppc.settle_switch, Ppc.settle_fitted]; exact ho.needed
  · rw [Ppc.settle_alone]; exact Ppc.settle_window out ho.window hw
  · rw [Ppc.settle_alone]
    unfold Ppc.carriesAlone
    rw [Ppc.settle_switch]
    rfl

/-- A settlement makes PPC safe. -/
theorem State.ppcSettle_safe (s : State) {p : Ppc} (h : p.Steady) (ps : List Event) : (s.ppcSettle p ps).ppc.safe := by
  rw [State.ppcSettle_ppc]
  exact h.settle s.ppc s.lmc.out

/-- An event that ends without a settlement has moved no switch, and leaves the bridge record in step. -/
theorem State.ppcEnd_safe {s : State} (hs : s.ppc.safe) {p : Ppc} (h : p.Steady) (ha : p.bridge.alone = s.ppc.bridge.alone)
    (ps : List Event) : (s.ppcEnd p ps).ppc.safe := by
  unfold State.ppcEnd
  split
  · next hsw =>
    rw [State.ppcQuiet_ppc]
    exact (Ppc.safe_iff p).2 ⟨h, by rw [ha, hs.inStep, Ppc.carriesAlone_congr hsw]⟩
  · exact s.ppcSettle_safe h ps

end Sys2Proof.Machine
end

section
/-! The events of PPC keep records and switches in order (R25 to R44, R49 to R54): one lemma per event. -/

namespace Sys2Proof.Machine

/-! ### Pack records -/

theorem Pack.safe.open_of_state {k : Pack} (h : k.safe) (hs : k.state ≠ .online) : k.switch = false :=
  Bool.eq_false_iff.2 fun hc => hs (h.1.1 hc)

theorem Pack.safe.present {k : Pack} (h : k.safe) (hs : k.state ≠ .empty) : k.presence = true :=
  Bool.not_eq_false _ ▸ fun hp => hs (h.2.1.1 hp)

theorem Pack.safe.empty {k : Pack} (h : k.safe) (hp : k.presence = false) : k.state = .empty := h.2.1.1 hp

theorem Pack.safe.unpending {k : Pack} (h : k.safe) (h1 : k.state ≠ .releasing) (h2 : k.state ≠ .fault) : k.lockPending = false :=
  Bool.eq_false_iff.2 fun hp => (h.2.2.2.1 hp).1.elim h1 h2

theorem Pack.safe.unpending_of_confirm {k : Pack} (h : k.safe) (hc : k.confirmTimer.isSome = true) : k.lockPending = false :=
  Bool.eq_false_iff.2 fun hp => by simp [(h.2.2.2.1 hp).2] at hc

theorem Pack.safe.unconfirmed {k : Pack} (h : k.safe) (hs : k.state ≠ .releasing) : k.confirmTimer = none :=
  Option.not_isSome_iff_eq_none.1 fun hc => hs (h.2.2.2.2 hc)

theorem Pack.safe.locked {k : Pack} (h : k.safe)
    (hs : k.state ∈ [PackState.seated, .qualifying, .standby, .online, .releasing]) : k.lock = true := h.2.2.1 hs

/-- Safety is a matter of state, presence, lock, switch, pending release and RELEASE_CONFIRM. -/
theorem Pack.safe.congr {k k' : Pack} (h : k.safe) (hs : k'.state = k.state) (hp : k'.presence = k.presence)
    (hl : k'.lock = k.lock) (hw : k'.switch = k.switch) (hr : k'.lockPending = k.lockPending)
    (hc : k'.confirmTimer.isSome = k.confirmTimer.isSome) : k'.safe := by
  have hn : k'.confirmTimer = none ↔ k.confirmTimer = none := by
    rw [← Option.isNone_iff_eq_none, ← Option.isNone_iff_eq_none, ← Option.not_isSome, ← Option.not_isSome, hc]
  unfold Pack.safe
  rw [hs, hp, hl, hw, hr, hc, hn]
  exact h

theorem Pack.safe.reallow {k : Pack} (h : k.safe) (f : PackProfile) : (k.reallow f).safe := by
  rw [Pack.reallow_only]
  exact h.congr rfl rfl rfl rfl rfl rfl

@[simp] theorem Pack.reallow_state (k : Pack) (f : PackProfile) : (k.reallow f).state = k.state := by rw [Pack.reallow_only]
@[simp] theorem Pack.reallow_switch (k : Pack) (f : PackProfile) : (k.reallow f).switch = k.switch := by rw [Pack.reallow_only]

theorem Pack.store_only (k : Pack) (f : PackProfile) (g : GaugeSample) :
    k.store f g = { k with sample := some g, age := some 0, stale := false, staleTimer := (k.store f g).staleTimer
                           allowance := (k.store f g).allowance } := by
  unfold Pack.store
  dsimp only
  split
  · rw [Pack.reallow_only]
  · rfl

theorem Pack.safe.store {k : Pack} (h : k.safe) (f : PackProfile) (g : GaugeSample) : (k.store f g).safe := by
  rw [Pack.store_only]
  exact h.congr rfl rfl rfl rfl rfl rfl

@[simp] theorem Pack.store_state (k : Pack) (f : PackProfile) (g : GaugeSample) : (k.store f g).state = k.state := by rw [Pack.store_only]
@[simp] theorem Pack.store_switch (k : Pack) (f : PackProfile) (g : GaugeSample) : (k.store f g).switch = k.switch := by rw [Pack.store_only]
@[simp] theorem Pack.store_lockPending (k : Pack) (f : PackProfile) (g : GaugeSample) : (k.store f g).lockPending = k.lockPending := by
  rw [Pack.store_only]

@[simp] theorem Pack.store_presence (k : Pack) (f : PackProfile) (g : GaugeSample) : (k.store f g).presence = k.presence := by
  rw [Pack.store_only]
@[simp] theorem Pack.store_lock (k : Pack) (f : PackProfile) (g : GaugeSample) : (k.store f g).lock = k.lock := by rw [Pack.store_only]
@[simp] theorem Pack.store_confirmTimer (k : Pack) (f : PackProfile) (g : GaugeSample) :
    (k.store f g).confirmTimer = k.confirmTimer := by rw [Pack.store_only]

/-- A present pack that is not on its way out faults in order (R31). -/
theorem Pack.safe.faulted {k : Pack} (h : k.safe) (h1 : k.state ≠ .releasing) (h2 : k.state ≠ .empty) (c : FaultCause)
    (idle : Bool) : (k.faulted c idle).safe := by
  have hp := h.present h2
  have hc := h.unconfirmed h1
  cases idle <;> simp [Pack.safe, Pack.faulted, Pack.releaseLock, hp, hc]

@[simp] theorem Pack.faulted_switch (k : Pack) (c : FaultCause) (idle : Bool) : (k.faulted c idle).switch = false := by
  cases idle <;> rfl

@[simp] theorem Pack.faulted_state (k : Pack) (c : FaultCause) (idle : Bool) : (k.faulted c idle).state = .fault := by
  cases idle <;> rfl

theorem Pack.safe.leaving {k : Pack} (h : k.safe) (hs : k.state = .standby ∨ k.state = .online) (f : PackProfile) :
    (k.leaving f).safe := by
  have hp := h.present (by rcases hs with hs | hs <;> simp [hs])
  have hl := h.locked (by rcases hs with hs | hs <;> simp [hs])
  have hr := h.unpending (by rcases hs with hs | hs <;> simp [hs]) (by rcases hs with hs | hs <;> simp [hs])
  simp [Pack.safe, Pack.leaving, hp, hl, hr]

/-- The record of a pack that is let go: the lock released, UNLOCK_HOLD started (R40, R41). -/
theorem Pack.safe.unlocked {k k' : Pack} (h : k.safe) (h1 : k.state ≠ .online) (h2 : k.state ≠ .empty)
    (hr : k.lockPending = false) (hs : k'.state = .unlocked) (hp : k'.presence = k.presence) (hw : k'.switch = k.switch)
    (hl : k'.lockPending = k.lockPending) (hc : k'.confirmTimer = none) : k'.safe := by
  have hp' := h.present h2
  have hw' := h.open_of_state h1
  simp [Pack.safe, hs, hp, hp', hw, hw', hl, hr, hc]

theorem Pack.safe.completeRelease {k : Pack} (h : k.safe) (f : PackProfile) : (k.completeRelease f).safe := by
  cases hr : k.lockPending with
  | false => rwa [Pack.completeRelease_waiting hr]
  | true =>
    obtain ⟨hs, hc⟩ := h.2.2.2.1 hr
    have hp := h.present (by rcases hs with hs | hs <;> simp [hs])
    have hw := h.open_of_state (by rcases hs with hs | hs <;> simp [hs])
    rcases hs with hs | hs <;> simp [Pack.safe, Pack.completeRelease, hr, hs, hc, hp, hw]

theorem Pack.completeRelease_standby {k : Pack} {f : PackProfile} (h : (k.completeRelease f).state = .standby) :
    k.state = .standby := by
  unfold Pack.completeRelease at h
  split at h
  · exact h
  · split at h
    · cases h
    · exact h

/-! ### One record changes -/

/-- A record that keeps its switch and does not come to wait fits its slot. -/
theorem Ppc.Steady.setPack {p : Ppc} (h : p.Steady) {x : Slot} {k : Pack} (hk : k.safe) (hw : k.switch = (p.pack x).switch)
    (hs : k.state = .standby → (p.pack x).state = .standby) : (p.setPack x k).Steady where
  ordered := h.ordered.setPack ⟨hk, fun hc => hw ▸ hc, fun hc hn => by rw [hw, hc] at hn; cases hn⟩
  served hm y hy := by
    rw [Ppc.setPack_mainClosed hw] at hm
    by_cases hyx : y = x
    · subst hyx
      rw [Ppc.pack_setPack] at hy
      exact h.served hm y (hs hy)
    · rw [Ppc.pack_setPack_ne _ _ _ _ hyx] at hy
      exact h.served hm y hy

theorem Ppc.safe.setPack {p : Ppc} (h : p.safe) {x : Slot} {k : Pack} (hk : k.safe) (hw : k.switch = (p.pack x).switch)
    (hs : k.state = .standby → (p.pack x).state = .standby) : (p.setPack x k).safe :=
  (Ppc.safe_iff _).2 ⟨h.steady.setPack hk hw hs, by
    unfold Ppc.carriesAlone
    rw [Ppc.setPack_mainClosed hw, Ppc.setPack_bridge]
    exact h.inStep⟩

/-- A record that keeps its switch changes, and selection runs. -/
theorem Ppc.Ordered.setPack_select {p : Ppc} (h : p.Ordered) {x : Slot} {k : Pack} (hk : k.safe)
    (hw : k.switch = (p.pack x).switch) : (p.setPack x k).select.Steady :=
  (h.setPack ⟨hk, fun hc => hw ▸ hc, fun hc hn => by rw [hw, hc] at hn; cases hn⟩).select

/-! ### The release, case by case (R37 to R40) -/

/-- The record of a SEATED or QUALIFYING pack that is let go (R40). -/
def Pack.letGo (k : Pack) (f : PackProfile) : Pack :=
  { k with qualTimer := none, staleTimer := none, lock := false, state := .unlocked, holdTimer := some f.unlockHold }

section
variable {p : Ppc} {x : Slot} (r : Regime)

theorem Ppc.release_ignored (idle : Bool) (h : (p.pack x).state ∈ [PackState.releasing, .unlocked, .fault, .empty]) :
    p.release x idle r = { ppc := p, result := .ignored, pulses := [] } := by
  simp only [List.mem_cons, List.not_mem_nil, or_false] at h
  rcases h with h | h | h | h <;> simp [Ppc.release, h]

theorem Ppc.release_motion (h : (p.pack x).state ∈ [PackState.online, .standby, .seated, .qualifying]) :
    p.release x false r = p.refuseRelease x .motion := by
  simp only [List.mem_cons, List.not_mem_nil, or_false] at h
  rcases h with h | h | h | h <;> simp [Ppc.release, h]

theorem Ppc.release_letGo (h : (p.pack x).state = .seated ∨ (p.pack x).state = .qualifying) :
    p.release x true r = { ppc := (p.setPack x ((p.pack x).letGo p.profile)).select, result := .done, pulses := [.swapReady] } := by
  rcases h with h | h <;> simp [Ppc.release, Pack.letGo, h]

theorem Ppc.release_leaves (h : (p.pack x).state = .standby ∨ (p.pack x).state = .online ∧ p.noSuccessor x r = none) :
    p.release x true r = { ppc := p.enterReleasing x, result := .done, pulses := [] } := by
  rcases h with h | ⟨h, hn⟩
  · simp [Ppc.release, h]
  · simp [Ppc.release, h, hn]

theorem Ppc.release_refused (h : (p.pack x).state = .online) {why : Reason} (hn : p.noSuccessor x r = some why) :
    p.release x true r = p.refuseRelease x why := by
  simp [Ppc.release, h, hn]

/-- A release is ignored, refused, lets the pack go, or makes it RELEASING. -/
theorem Ppc.release_cases (p : Ppc) (x : Slot) (idle : Bool) (r : Regime) :
    ((p.pack x).state ∈ [PackState.releasing, .unlocked, .fault, .empty]
        ∧ p.release x idle r = { ppc := p, result := .ignored, pulses := [] })
      ∨ ((p.pack x).state ∈ [PackState.online, .standby, .seated, .qualifying] ∧ ∃ why, p.release x idle r = p.refuseRelease x why)
      ∨ (((p.pack x).state = .seated ∨ (p.pack x).state = .qualifying) ∧ p.release x idle r
          = { ppc := (p.setPack x ((p.pack x).letGo p.profile)).select, result := .done, pulses := [.swapReady] })
      ∨ (((p.pack x).state = .standby ∨ (p.pack x).state = .online)
          ∧ p.release x idle r = { ppc := p.enterReleasing x, result := .done, pulses := [] }) := by
  by_cases hout : (p.pack x).state ∈ [PackState.releasing, .unlocked, .fault, .empty]
  · exact .inl ⟨hout, Ppc.release_ignored r idle hout⟩
  · have hin : (p.pack x).state ∈ [PackState.online, .standby, .seated, .qualifying] := by
      cases hs : (p.pack x).state <;> simp [hs] at hout ⊢
    cases idle with
    | false => exact .inr (.inl ⟨hin, _, Ppc.release_motion r hin⟩)
    | true =>
      by_cases hseat : (p.pack x).state = .seated ∨ (p.pack x).state = .qualifying
      · exact .inr (.inr (.inl ⟨hseat, Ppc.release_letGo r hseat⟩))
      · by_cases hst : (p.pack x).state = .standby
        · exact .inr (.inr (.inr ⟨.inl hst, Ppc.release_leaves r (.inl hst)⟩))
        · have hon : (p.pack x).state = .online := by
            simp only [List.mem_cons, List.not_mem_nil, or_false] at hin
            tauto
          cases hn : p.noSuccessor x r with
          | none => exact .inr (.inr (.inr ⟨.inr hon, Ppc.release_leaves r (.inr ⟨hon, hn⟩)⟩))
          | some why => exact .inr (.inl ⟨hin, why, Ppc.release_refused r hon hn⟩)

end

/-! ### A gauge sample, case by case (R27 to R31, R41) -/

/-- The records with a sample stored in that of slot `x` (R27). -/
def Ppc.stored (p : Ppc) (x : Slot) (g : GaugeSample) : Ppc := p.setPack x ((p.pack x).store p.profile g)

@[simp] theorem Ppc.stored_pack (p : Ppc) (x : Slot) (g : GaugeSample) : (p.stored x g).pack x = (p.pack x).store p.profile g :=
  Ppc.pack_setPack _ _ _

section
variable {p : Ppc} {x : Slot} (g : GaugeSample) (idle : Bool)

/-- PPC as the first sample of qualification finds it (R25, R28). -/
def Ppc.qualifying (p : Ppc) (x : Slot) (g : GaugeSample) : Ppc :=
  ((p.stored x g).setPack x
    { (p.pack x).store p.profile g with state := .qualifying, qualTimer := some p.profile.qualTimeout }).select

theorem Ppc.gaugeSample_seated (h : (p.pack x).state = .seated) :
    p.gaugeSample x g idle = (p.qualifying x g).qualify x g idle := by
  simp only [Ppc.gaugeSample, h, Ppc.qualifying, Ppc.stored, Ppc.pack_setPack]

theorem Ppc.gaugeSample_qualifying (h : (p.pack x).state = .qualifying) :
    p.gaugeSample x g idle = (p.stored x g).qualify x g idle := by
  simp only [Ppc.gaugeSample, h, Ppc.stored]

theorem Ppc.gaugeSample_faults (h : (p.pack x).state = .standby ∨ (p.pack x).state = .online) {c : FaultCause}
    (hc : p.profile.faultOf g = some c) : p.gaugeSample x g idle = ((p.stored x g).enterFault x c idle, [.packFault x]) := by
  rcases h with h | h <;> simp only [Ppc.gaugeSample, h, hc, Ppc.stored]

/-- The records with a sample stored and the allowance recomputed from it (R55). -/
def Ppc.allowed (p : Ppc) (x : Slot) (g : GaugeSample) : Ppc :=
  (p.stored x g).setPack x (((p.pack x).store p.profile g).reallow p.profile)

theorem Ppc.gaugeSample_standby (h : (p.pack x).state = .standby) (hc : p.profile.faultOf g = none) :
    p.gaugeSample x g idle = (p.allowed x g, []) := by
  simp [Ppc.gaugeSample, h, hc, Ppc.allowed, Ppc.stored]

theorem Ppc.gaugeSample_online (h : (p.pack x).state = .online) (hc : p.profile.faultOf g = none) :
    p.gaugeSample x g idle = ((p.allowed x g).select, []) := by
  simp [Ppc.gaugeSample, h, hc, Ppc.allowed, Ppc.stored]

theorem Ppc.gaugeSample_confirms (h : (p.pack x).state = .releasing) (hw : (p.pack x).lockPending = false)
    (hc : g.current ≤ p.profile.releaseMa) : p.gaugeSample x g idle = (p.stored x g).confirm x idle := by
  simp [Ppc.gaugeSample, h, hw, hc, Ppc.stored]

theorem Ppc.gaugeSample_stored (h : (p.pack x).state = .releasing ∧ ((p.pack x).lockPending = true ∨ p.profile.releaseMa < g.current)
    ∨ (p.pack x).state = .unlocked ∨ (p.pack x).state = .fault) : p.gaugeSample x g idle = (p.stored x g, []) := by
  rcases h with ⟨h, hw⟩ | h | h
  · have hc : (!(p.pack x).lockPending && decide (g.current ≤ p.profile.releaseMa)) = false := by
      rcases hw with hw | hw
      · simp [hw]
      · simp [Int.not_le.2 hw]
    simp only [Ppc.gaugeSample, h, hc, Ppc.stored, Bool.false_eq_true, if_false]
  · simp only [Ppc.gaugeSample, h, Ppc.stored]
  · simp only [Ppc.gaugeSample, h, Ppc.stored]

end

/-! ### Seating, loss, release -/

theorem Ppc.seat_steady {p : Ppc} (h : p.Ordered) {x : Slot} (hx : (p.pack x).presence = false) : (p.seat x).Steady := by
  have hk := h.record x
  have he := hk.empty hx
  have hr := hk.unpending (by simp [he]) (by simp [he])
  have hc := hk.unconfirmed (by simp [he])
  have hw := hk.open_of_state (by simp [he])
  exact h.setPack_select (by simp [Pack.safe, hr, hc, hw]) rfl

theorem Ppc.lose_steady {p : Ppc} (h : p.Ordered) (x : Slot) (idle : Bool) : (p.lose x idle).Steady := by
  refine Ppc.Ordered.select (Ppc.Ordered.setPack ?_ ⟨by simp [Pack.safe], by simp, fun hc _ hf => ?_⟩)
  · split
    · exact h.closeBridge
    · exact h
  · have hsw : (p.pack x).switch = true := by
      split at hc
      · rwa [Ppc.closeBridge_pack] at hc
      · exact hc
    rw [if_pos hsw] at hf ⊢
    exact Ppc.closeBridge_closed hf

theorem Ppc.enterFault_steady {p : Ppc} (h : p.Ordered) {x : Slot} (h1 : (p.pack x).state ≠ .releasing)
    (h2 : (p.pack x).state ≠ .empty) (c : FaultCause) (idle : Bool) : (p.enterFault x c idle).Steady := by
  rw [Ppc.enterFault_eq]
  exact h.leave ((h.record x).faulted h1 h2 c idle) (Pack.faulted_switch _ c idle)

theorem Ppc.enterReleasing_steady {p : Ppc} (h : p.Ordered) {x : Slot} (hs : (p.pack x).state = .standby ∨ (p.pack x).state = .online) :
    (p.enterReleasing x).Steady := by
  rw [Ppc.enterReleasing_eq]
  exact h.leave ((h.record x).leaving hs _) rfl

theorem Ppc.refuseRelease_steady {p : Ppc} (h : p.Steady) (x : Slot) (r : Reason) : (p.refuseRelease x r).ppc.Steady :=
  h.setPack ((h.ordered.record x).congr rfl rfl rfl rfl rfl rfl) rfl id

theorem Ppc.release_steady {p : Ppc} (h : p.Steady) (x : Slot) (idle : Bool) (r : Regime) : (p.release x idle r).ppc.Steady := by
  have hk := h.ordered.record x
  rcases p.release_cases x idle r with ⟨_, hr⟩ | ⟨_, why, hr⟩ | ⟨hs, hr⟩ | ⟨hs, hr⟩ <;> rw [hr]
  · exact h
  · exact Ppc.refuseRelease_steady h x why
  · have hne : (p.pack x).state ≠ .online ∧ (p.pack x).state ≠ .empty ∧ (p.pack x).state ≠ .releasing ∧ (p.pack x).state ≠ .fault := by
      rcases hs with hs | hs <;> simp [hs]
    obtain ⟨h1, h2, h3, h4⟩ := hne
    exact h.ordered.setPack_select (hk.unlocked h1 h2 (hk.unpending h3 h4) rfl rfl rfl rfl (hk.unconfirmed h3)) rfl
  · exact Ppc.enterReleasing_steady h.ordered hs

theorem Ppc.confirm_steady {p : Ppc} (h : p.Steady) {x : Slot} (hs : (p.pack x).state = .releasing)
    (hr : (p.pack x).lockPending = false) (idle : Bool) : (p.confirm x idle).1.Steady := by
  have hk := h.ordered.record x
  cases idle with
  | true => exact h.ordered.setPack_select (hk.unlocked (by simp [hs]) (by simp [hs]) hr rfl rfl rfl rfl rfl) rfl
  | false =>
    refine h.setPack ?_ rfl id
    have hp := hk.present (by simp [hs])
    have hl := hk.locked (by simp [hs])
    have hw := hk.open_of_state (by simp [hs])
    simp [Pack.safe, hs, hp, hl, hw]

theorem Ppc.relock_steady {p : Ppc} (h : p.Ordered) {x : Slot} (hs : (p.pack x).state = .unlocked) : (p.relock x).Steady := by
  have hk := h.record x
  have hp := hk.present (by simp [hs])
  have hr := hk.unpending (by simp [hs]) (by simp [hs])
  have hc := hk.unconfirmed (by simp [hs])
  have hw := hk.open_of_state (by simp [hs])
  exact h.setPack_select (by simp [Pack.safe, hp, hr, hc, hw]) rfl

/-! ### Gauge samples -/

theorem Ppc.gaugeStale_steady {p : Ppc} (h : p.Steady) (x : Slot) : (p.gaugeStale x).Steady :=
  have hk : ({ p.pack x with staleTimer := none, stale := true } : Pack).safe := (h.ordered.record x).congr rfl rfl rfl rfl rfl rfl
  h.setPack (hk.reallow _) (Pack.reallow_switch _ _) (by rw [Pack.reallow_state]; exact id)

theorem Ppc.qualify_steady {p : Ppc} (h : p.Steady) {x : Slot} (hs : (p.pack x).state = .qualifying) (g : GaugeSample)
    (idle : Bool) : (p.qualify x g idle).1.Steady := by
  have hk := h.ordered.record x
  have hw := hk.open_of_state (by simp [hs])
  have hcount : ∀ n, (p.setPack x { p.pack x with qual := n }).Steady := fun n =>
    h.setPack (hk.congr rfl rfl rfl rfl rfl rfl) rfl id
  unfold Ppc.qualify
  dsimp only
  split
  · split
    · have hp := hk.present (by simp [hs])
      have hl := hk.locked (by simp [hs])
      have hr := hk.unpending (by simp [hs]) (by simp [hs])
      have hc := hk.unconfirmed (by simp [hs])
      exact h.ordered.setPack_select (Pack.safe.reallow (by simp [Pack.safe, hp, hl, hr, hc, hw]) _) (Pack.reallow_switch _ _)
    · exact hcount _
  · split
    · refine Ppc.enterFault_steady (hcount 0).ordered ?_ ?_ _ _ <;> simp [hs]
    · exact hcount 0

theorem Ppc.stored_steady {p : Ppc} (h : p.Steady) (x : Slot) (g : GaugeSample) : (p.stored x g).Steady :=
  h.setPack ((h.ordered.record x).store _ _) (Pack.store_switch _ _ _) (by rw [Pack.store_state]; exact id)

theorem Ppc.qualifying_steady {p : Ppc} (h : p.Steady) {x : Slot} (hs : (p.pack x).state = .seated) (g : GaugeSample) :
    (p.qualifying x g).Steady ∧ ((p.qualifying x g).pack x).state = .qualifying := by
  have hk := h.ordered.record x
  have hp := hk.present (by simp [hs])
  have hl := hk.locked (by simp [hs])
  have hr := hk.unpending (by simp [hs]) (by simp [hs])
  have hc := hk.unconfirmed (by simp [hs])
  have hw := hk.open_of_state (by simp [hs])
  refine ⟨(Ppc.stored_steady h x g).ordered.setPack_select (by simp [Pack.safe, hp, hl, hr, hc, hw]) (by rw [Ppc.stored_pack]), ?_⟩
  unfold Ppc.qualifying
  rw [Ppc.select_pack_eq _ _ (by simp) (by simp), Ppc.pack_setPack]

theorem Ppc.allowed_steady {p : Ppc} (h : p.Steady) (x : Slot) (g : GaugeSample) : (p.allowed x g).Steady :=
  (Ppc.stored_steady h x g).setPack (((h.ordered.record x).store _ _).reallow _) (by rw [Pack.reallow_switch, Ppc.stored_pack])
    (by rw [Pack.reallow_state, Ppc.stored_pack]; exact id)

theorem Ppc.gaugeSample_steady {p : Ppc} (h : p.Steady) (x : Slot) (g : GaugeSample) (idle : Bool) :
    (p.gaugeSample x g idle).1.Steady := by
  have hst := Ppc.stored_steady h x g
  have hstate : ((p.stored x g).pack x).state = (p.pack x).state := by rw [Ppc.stored_pack, Pack.store_state]
  cases hs : (p.pack x).state with
  | empty => rw [Ppc.gaugeSample_empty p x g idle hs]; exact h
  | seated =>
    rw [Ppc.gaugeSample_seated g idle hs]
    exact Ppc.qualify_steady (Ppc.qualifying_steady h hs g).1 (Ppc.qualifying_steady h hs g).2 g idle
  | qualifying =>
    rw [Ppc.gaugeSample_qualifying g idle hs]
    exact Ppc.qualify_steady hst (hstate.trans hs) g idle
  | standby =>
    cases hc : p.profile.faultOf g with
    | some c =>
      rw [Ppc.gaugeSample_faults g idle (.inl hs) hc]
      exact Ppc.enterFault_steady hst.ordered (by simp [hs]) (by simp [hs]) _ _
    | none =>
      rw [Ppc.gaugeSample_standby g idle hs hc]
      exact Ppc.allowed_steady h x g
  | online =>
    cases hc : p.profile.faultOf g with
    | some c =>
      rw [Ppc.gaugeSample_faults g idle (.inr hs) hc]
      exact Ppc.enterFault_steady hst.ordered (by simp [hs]) (by simp [hs]) _ _
    | none =>
      rw [Ppc.gaugeSample_online g idle hs hc]
      exact (Ppc.allowed_steady h x g).ordered.select
  | releasing =>
    by_cases hc : (p.pack x).lockPending = true ∨ (p.profile.releaseMa : Int) < g.current
    · rw [Ppc.gaugeSample_stored g idle (.inl ⟨hs, hc⟩)]
      exact hst
    · obtain ⟨hw, hi⟩ : (p.pack x).lockPending = false ∧ g.current ≤ p.profile.releaseMa := by
        simpa [not_or] using hc
      rw [Ppc.gaugeSample_confirms g idle hs hw hi]
      exact Ppc.confirm_steady hst (hstate.trans hs) (by rw [Ppc.stored_pack, Pack.store_lockPending, hw]) idle
  | unlocked => rw [Ppc.gaugeSample_stored g idle (.inr (.inl hs))]; exact hst
  | fault => rw [Ppc.gaugeSample_stored g idle (.inr (.inr hs))]; exact hst

/-! ### DC input, brace, bridge -/

theorem Ppc.Ordered.openBridgeIfFree {p : Ppc} (h : p.Ordered) : p.openBridgeIfFree.Ordered := by
  rcases p.openBridgeIfFree_cases with ⟨_, hp⟩ | ⟨hn, hp⟩
  · rwa [hp]
  · rw [hp]
    exact ⟨h.record, h.single, h.dc, h.dcOnly, fun hc => absurd hc Bool.false_ne_true, fun _ hn' => absurd (hn'.symm.trans hn) (by simp), h.window⟩

theorem Ppc.openBridgeIfFree_steady {p : Ppc} (h : p.Steady) : p.openBridgeIfFree.Steady where
  ordered := h.ordered.openBridgeIfFree
  served := by rcases p.openBridgeIfFree_cases with ⟨_, hp⟩ | ⟨_, hp⟩ <;> rw [hp] <;> exact h.served

theorem Pack.safe.standDown_of {k : Pack} (h : k.safe) : k.standDown.safe ∧ k.standDown.switch = false := by
  unfold Pack.standDown
  split
  · next hs => exact ⟨h.standDown hs, rfl⟩
  · next hs => exact ⟨h, h.open_of_state hs⟩

/-- DCIN_OK set: SW_DC closes and the packs stand down (R33 step 1, R34). -/
theorem Ppc.selectDc_steady {p : Ppc} (h : p.Ordered) : ({ p with dcinOk := true } : Ppc).selectDc.Steady := by
  have hdown : ∀ x, (p.pack x).standDown.safe ∧ (p.pack x).standDown.switch = false := fun x => (h.record x).standDown_of
  have hpack : ∀ x, ({ p with dcinOk := true } : Ppc).selectDc.pack x = (p.pack x).standDown := fun x => by
    unfold Ppc.selectDc; dsimp only; split <;> cases x <;> rfl
  have hdc : ({ p with dcinOk := true } : Ppc).selectDc.swDc = true ∧ ({ p with dcinOk := true } : Ppc).selectDc.dcinOk = true := by
    unfold Ppc.selectDc; dsimp only; split <;> exact ⟨rfl, rfl⟩
  have hoff : ∀ x, (({ p with dcinOk := true } : Ppc).selectDc.pack x).switch = false := fun x => by rw [hpack]; exact (hdown x).2
  refine ⟨⟨fun x => hpack x ▸ (hdown x).1, fun x hx => absurd ((hoff x).symm.trans hx) Bool.false_ne_true, hdc.1.trans hdc.2.symm,
    fun _ => hoff, ?_, fun hf hn => ?_, ?_⟩, fun hm => by simp [Ppc.mainClosed, hdc.1] at hm⟩
  · unfold Ppc.selectDc; dsimp only; split
    · exact fun hc => absurd hc Bool.false_ne_true
    · exact h.cell
  · have hbrace : p.brace = true := by
      have : ({ p with dcinOk := true } : Ppc).selectDc.brace = p.brace := by
        unfold Ppc.selectDc; dsimp only; split <;> rfl
      simpa [Ppc.bridgeNeeded, Ppc.mainClosed, hdc.1, this] using hn
    have hb : ({ p with dcinOk := true } : Ppc).selectDc.bridge = p.bridge := by unfold Ppc.selectDc; simp [hbrace]
    rw [hb] at hf ⊢
    exact h.needed hf (by simp [Ppc.bridgeNeeded, hbrace])
  · unfold Ppc.selectDc; dsimp only; split <;> exact h.window

theorem Ppc.dcChange_steady {p : Ppc} (h : p.Ordered) {level : Bool} (hl : p.dcinOk ≠ level) : (p.dcChange level).Steady := by
  cases level with
  | true =>
    have : p.dcChange true = ({ p with dcinOk := true } : Ppc).selectDc := by
      unfold Ppc.dcChange; simp [Ppc.select]
    rw [this]
    exact Ppc.selectDc_steady h
  | false =>
    have hd : p.swDc = true := h.dc.trans (by simpa using hl)
    have hoff := h.dcOnly hd
    have hc := h.closeBridge
    have hmid : ({ ({ p with dcinOk := false } : Ppc).closeBridge with swDc := false } : Ppc).Ordered := by
      unfold Ppc.closeBridge
      dsimp only
      split
      · next hf =>
        exact ⟨h.record, h.single, rfl, fun hc => absurd hc Bool.false_ne_true, fun _ => hf, fun _ _ => rfl, h.window⟩
      · next hf =>
        exact ⟨h.record, h.single, rfl, fun hc => absurd hc Bool.false_ne_true, h.cell, fun hf' _ => absurd hf' hf, h.window⟩
    refine (hmid.endTransfer_choose fun x => ?_).select
    have : ({ ({ p with dcinOk := false } : Ppc).closeBridge with swDc := false } : Ppc).pack x = p.pack x := by
      unfold Ppc.closeBridge; split <;> cases x <;> rfl
    rw [this]
    exact hoff x

theorem Ppc.settleExpiry_steady {p : Ppc} (h : p.Steady) : p.settleExpiry.Steady := by
  have ho := h.ordered
  exact Ppc.openBridgeIfFree_steady ⟨⟨ho.record, ho.single, ho.dc, ho.dcOnly, ho.cell, ho.needed, ho.window⟩, h.served⟩

theorem Ppc.Ordered.noWindow {p : Ppc} (h : p.Ordered) :
    ({ p with bridge := { p.bridge with window := .none, exhausted := true } } : Ppc).Ordered :=
  ⟨h.record, h.single, h.dc, h.dcOnly, h.cell, h.needed, fun hw => absurd rfl hw⟩

theorem Ppc.exhaust_steady {p : Ppc} (h : p.Ordered) : p.exhaust.Steady := h.noWindow.select

theorem Ppc.braceOn_steady {p : Ppc} (h : p.Steady) : p.braceOn.Steady := by
  have ho := h.ordered
  unfold Ppc.braceOn Ppc.closeBridge
  split
  · next hf => exact ⟨⟨ho.record, ho.single, ho.dc, ho.dcOnly, fun _ => hf, fun _ _ => rfl, ho.window⟩, h.served⟩
  · next hf => exact ⟨⟨ho.record, ho.single, ho.dc, ho.dcOnly, ho.cell, fun hf' _ => absurd hf' hf, ho.window⟩, h.served⟩

theorem Ppc.unbraced_steady {p : Ppc} (h : p.Steady) : p.unbraced.Steady := by
  have ho := h.ordered
  have hoff : ({ p with brace := false } : Ppc).Steady :=
    ⟨⟨ho.record, ho.single, ho.dc, ho.dcOnly, ho.cell, fun hf hn => ho.needed hf (by
      have hn' : p.mainClosed = false := by simpa [Ppc.bridgeNeeded, Ppc.mainClosed] using hn
      rw [Ppc.bridgeNeeded, hn', Bool.not_false, Bool.or_true]), ho.window⟩, h.served⟩
  unfold Ppc.unbraced
  dsimp only
  split
  · exact Ppc.openBridgeIfFree_steady hoff
  · exact hoff

theorem Ppc.released_steady {p : Ppc} (h : p.Steady) : p.released.Steady := by
  have hx : ∀ (q : Ppc) (x : Slot), q.Steady → (q.setPack x ((q.pack x).completeRelease p.profile)).Steady := fun q x hq =>
    hq.setPack ((hq.ordered.record x).completeRelease _) (Pack.completeRelease_switch _ _) Pack.completeRelease_standby
  exact hx _ .b (hx _ .a (Ppc.unbraced_steady h))

theorem Ppc.braceOff_steady {p : Ppc} (h : p.Steady) : p.braceOff.Steady := by
  rw [Ppc.braceOff_eq]
  split
  · exact (Ppc.released_steady h).ordered.select
  · exact Ppc.released_steady h

theorem Ppc.bridgeFit_steady {p : Ppc} (h : p.Steady) (level : Bool) : (p.bridgeFit level).Steady := by
  have ho := h.ordered
  cases level with
  | true =>
    unfold Ppc.bridgeFit
    simp only [if_true]
    split
    · exact ⟨⟨ho.record, ho.single, ho.dc, ho.dcOnly, fun _ => rfl, fun _ _ => rfl, ho.window⟩, h.served⟩
    · next hn => exact ⟨⟨ho.record, ho.single, ho.dc, ho.dcOnly, fun _ => rfl, fun _ hn' => absurd hn' hn, ho.window⟩, h.served⟩
  | false =>
    have hout : ({ p with bridge := { p.bridge with fitted := false, last := none, low := false, switch := false } } : Ppc).Ordered :=
      ⟨ho.record, ho.single, ho.dc, ho.dcOnly, fun hc => absurd hc Bool.false_ne_true, fun hf => absurd hf Bool.false_ne_true,
        ho.window⟩
    unfold Ppc.bridgeFit
    simp only [Bool.false_eq_true, if_false]
    split
    · exact hout.select
    · exact ⟨hout, h.served⟩

/-- A BRIDGE sample leaves a window only where one may stand (R58, R59). -/
theorem Ppc.bridgeSample_steady {p : Ppc} (h : p.Steady) (g : BridgeSample) (out : Nat) : (p.bridgeSample g out).Steady := by
  have ho := h.ordered
  by_cases hc : p.bridge.alone = false ∨ p.bridge.exhausted = true
  · rw [Ppc.bridgeSample_stored p g out hc]
    exact ⟨⟨ho.record, ho.single, ho.dc, ho.dcOnly, ho.cell, ho.needed, ho.window⟩, h.served⟩
  · obtain ⟨ha, hx⟩ : p.bridge.alone = true ∧ p.bridge.exhausted = false := by simpa using hc
    rw [Ppc.bridgeSample_computed p g out ha hx]
    refine ⟨⟨ho.record, ho.single, ho.dc, ho.dcOnly, ?_, ?_, fun hw => ⟨?_, Bridge.withWindow_window hx hw⟩⟩, h.served⟩
    · rw [Bridge.withWindow_switch, Bridge.withWindow_fitted]; exact ho.cell
    · rw [Bridge.withWindow_switch, Bridge.withWindow_fitted]; exact ho.needed
    · rw [Bridge.withWindow_alone]; exact ha

/-! ### Settings -/

theorem Ppc.withProfile_steady {p : Ppc} (h : p.Steady) (f : PackProfile) : (p.withProfile f).Steady := by
  have hx : ∀ (q : Ppc) (x : Slot), q.Steady → (q.setPack x ((q.pack x).reallow f)).Steady := fun q x hq =>
    hq.setPack ((hq.ordered.record x).reallow f) (Pack.reallow_switch _ _) (by rw [Pack.reallow_state]; exact id)
  have hboth := hx _ .b (hx _ .a h)
  have ho := hboth.ordered
  exact ⟨⟨ho.record, ho.single, ho.dc, ho.dcOnly, ho.cell, ho.needed, ho.window⟩, hboth.served⟩

/-- What stands beside records, switches, brace and the window may change freely. -/
theorem Ppc.Steady.settings {p q : Ppc} (h : p.Steady)
    (hq : q = { p with profile := q.profile, bridgeSet := q.bridgeSet, power := q.power, budget := q.budget, regime := q.regime
                       pBlMax := q.pBlMax, bridge := { p.bridge with low := q.bridge.low } }) : q.Steady := by
  have ho := h.ordered
  rw [hq]
  exact ⟨⟨ho.record, ho.single, ho.dc, ho.dcOnly, ho.cell, ho.needed, ho.window⟩, h.served⟩

theorem Ppc.restarted_steady {p : Ppc} (h : p.Steady) : p.restarted.Steady := (Ppc.withProfile_steady h _).settings rfl

theorem Ppc.powerOn_steady (pins : Pins) : (Ppc.powerOn pins).Steady := by
  rw [Ppc.powerOn_eq]
  obtain ⟨presA, presB, leverA, leverB, dcinOk, brPres⟩ := pins
  have hrecord : ∀ present pressed, (Pack.initial present pressed false present).safe := fun present pressed => by
    cases present <;> simp [Pack.initial, Pack.safe]
  have hwait : ∀ present pressed, (Pack.initial present pressed false present).state ≠ .standby := fun present pressed => by
    cases present <;> simp [Pack.initial]
  refine ⟨⟨Slot.forall.2 ⟨hrecord _ _, hrecord _ _⟩, Slot.forall.2 ⟨fun h => absurd h Bool.false_ne_true, fun h => absurd h Bool.false_ne_true⟩,
    rfl, fun _ => Slot.forall.2 ⟨rfl, rfl⟩, fun h => ?_, fun hf hn => ?_, fun hw => ?_⟩, fun _ => Slot.forall.2 ⟨hwait _ _, hwait _ _⟩⟩
  · simpa using (Bool.and_eq_true _ _ ▸ h : _ ∧ _).1
  · dsimp only at hf
    simpa [Ppc.bridgeNeeded, Ppc.mainClosed, Ppc.initial, Pack.initial, Pins.heldOutputs, hf] using hn
  · dsimp only at hw ⊢
    split at hw
    · next hb => exact ⟨hb, rfl⟩
    · exact absurd rfl hw

end Sys2Proof.Machine
end

section
/-! Every step keeps PPC safe (R25, R33 to R35, R42, R52 to R54, R58): no event touches carrying alone before its settlement,
and no other block touches PPC but by a delivery. -/

namespace Sys2Proof.Machine

/-! ### What the events of PPC move -/

theorem Ppc.setPack_select_switched (p : Ppc) (x : Slot) (k : Pack) : p.Switched (p.setPack x k).select :=
  (p.setPack_switched x k).trans (Ppc.select_switched _)

theorem Ppc.seat_switched (p : Ppc) (x : Slot) : p.Switched (p.seat x) := p.setPack_select_switched x _

theorem Ppc.lose_switched (p : Ppc) (x : Slot) (idle : Bool) : p.Switched (p.lose x idle) := by
  refine Ppc.Switched.trans ?_ (Ppc.setPack_select_switched _ x _)
  split
  · exact p.closeBridge_switched
  · exact .refl p

theorem Ppc.enterFault_switched (p : Ppc) (x : Slot) (c : FaultCause) (idle : Bool) : p.Switched (p.enterFault x c idle) :=
  p.leave_switched x _

theorem Ppc.enterReleasing_switched (p : Ppc) (x : Slot) : p.Switched (p.enterReleasing x) := p.leave_switched x _

theorem Ppc.release_switched (p : Ppc) (x : Slot) (idle : Bool) (r : Regime) : p.Switched (p.release x idle r).ppc := by
  rcases p.release_cases x idle r with ⟨_, hr⟩ | ⟨_, why, hr⟩ | ⟨_, hr⟩ | ⟨_, hr⟩ <;> rw [hr]
  · exact .refl p
  · exact p.setPack_switched x _
  · exact p.setPack_select_switched x _
  · exact p.enterReleasing_switched x

theorem Ppc.confirm_switched (p : Ppc) (x : Slot) (idle : Bool) : p.Switched (p.confirm x idle).1 := by
  cases idle with
  | true => exact p.setPack_select_switched x _
  | false => exact p.setPack_switched x _

theorem Ppc.relock_switched (p : Ppc) (x : Slot) : p.Switched (p.relock x) := p.setPack_select_switched x _

theorem Ppc.qualify_switched (p : Ppc) (x : Slot) (g : GaugeSample) (idle : Bool) : p.Switched (p.qualify x g idle).1 := by
  unfold Ppc.qualify
  dsimp only
  split
  · split
    · exact p.setPack_select_switched x _
    · exact p.setPack_switched x _
  · split
    · exact (p.setPack_switched x _).trans (Ppc.enterFault_switched _ x _ _)
    · exact p.setPack_switched x _

theorem Ppc.stored_switched (p : Ppc) (x : Slot) (g : GaugeSample) : p.Switched (p.stored x g) := p.setPack_switched x _

theorem Ppc.qualifying_switched (p : Ppc) (x : Slot) (g : GaugeSample) : p.Switched (p.qualifying x g) :=
  (p.stored_switched x g).trans (Ppc.setPack_select_switched _ x _)

theorem Ppc.allowed_switched (p : Ppc) (x : Slot) (g : GaugeSample) : p.Switched (p.allowed x g) :=
  (p.stored_switched x g).trans (Ppc.setPack_switched _ x _)

theorem Ppc.gaugeSample_switched (p : Ppc) (x : Slot) (g : GaugeSample) (idle : Bool) : p.Switched (p.gaugeSample x g idle).1 := by
  have hst := p.stored_switched x g
  cases hs : (p.pack x).state with
  | empty => rw [Ppc.gaugeSample_empty p x g idle hs]; exact .refl p
  | seated => rw [Ppc.gaugeSample_seated g idle hs]; exact (p.qualifying_switched x g).trans (Ppc.qualify_switched _ x g idle)
  | qualifying => rw [Ppc.gaugeSample_qualifying g idle hs]; exact hst.trans (Ppc.qualify_switched _ x g idle)
  | standby =>
    cases hc : p.profile.faultOf g with
    | some c => rw [Ppc.gaugeSample_faults g idle (.inl hs) hc]; exact hst.trans (Ppc.enterFault_switched _ x c idle)
    | none => rw [Ppc.gaugeSample_standby g idle hs hc]; exact p.allowed_switched x g
  | online =>
    cases hc : p.profile.faultOf g with
    | some c => rw [Ppc.gaugeSample_faults g idle (.inr hs) hc]; exact hst.trans (Ppc.enterFault_switched _ x c idle)
    | none => rw [Ppc.gaugeSample_online g idle hs hc]; exact (p.allowed_switched x g).trans (Ppc.select_switched _)
  | releasing =>
    by_cases hc : (p.pack x).lockPending = true ∨ (p.profile.releaseMa : Int) < g.current
    · rw [Ppc.gaugeSample_stored g idle (.inl ⟨hs, hc⟩)]; exact hst
    · obtain ⟨hw, hi⟩ : (p.pack x).lockPending = false ∧ g.current ≤ p.profile.releaseMa := by simpa [not_or] using hc
      rw [Ppc.gaugeSample_confirms g idle hs hw hi]; exact hst.trans (Ppc.confirm_switched _ x idle)
  | unlocked => rw [Ppc.gaugeSample_stored g idle (.inr (.inl hs))]; exact hst
  | fault => rw [Ppc.gaugeSample_stored g idle (.inr (.inr hs))]; exact hst

theorem Ppc.gaugeStale_switched (p : Ppc) (x : Slot) : p.Switched (p.gaugeStale x) := p.setPack_switched x _

theorem Ppc.settleExpiry_switched (p : Ppc) : p.Switched p.settleExpiry := by
  unfold Ppc.settleExpiry Ppc.openBridgeIfFree
  split
  · exact ⟨rfl, rfl, rfl⟩
  · exact ⟨rfl, rfl, rfl⟩

theorem Ppc.braceOn_alone (p : Ppc) : p.braceOn.bridge.alone = p.bridge.alone := by rw [p.braceOn_only]

theorem Ppc.braceOff_alone (p : Ppc) : p.braceOff.bridge.alone = p.bridge.alone := by
  have hr : p.released.bridge.alone = p.bridge.alone := by rw [p.released_only]
  rw [Ppc.braceOff_eq]
  split
  · rw [(Ppc.select_switched _).alone, hr]
  · exact hr

/-! ### The events of PPC -/

theorem State.ppcQuiet_safe {s : State} {p : Ppc} (h : p.safe) (ps : List Event) : (s.ppcQuiet p ps).ppc.safe := by
  rwa [State.ppcQuiet_ppc]

/-- An event that only switches, ended with its settlement where it must be, keeps PPC safe. -/
theorem State.ppcEnd_switched_safe {s : State} (hs : s.ppc.safe) {p : Ppc} (h : p.Steady) (hp : s.ppc.Switched p)
    (ps : List Event) : (s.ppcEnd p ps).ppc.safe := State.ppcEnd_safe hs h hp.alone ps

theorem State.gaugeTap_safe {s : State} (h : s.ppc.safe) (x : Slot) (b : List Byte) : (s.gaugeTap x b).ppc.safe := by
  have hg := Ppc.gaugeSample_steady h.steady x (GaugeSample.ofPayload b) s.idlePhase
  rcases s.gaugeTap_cases x b with ⟨ht, _⟩ | ht <;> rw [ht]
  · exact s.ppcSettle_safe hg _
  · exact State.ppcEnd_switched_safe h hg (Ppc.gaugeSample_switched _ _ _ _) _

theorem Ppc.bridgeSample_switches (p : Ppc) (g : BridgeSample) (out : Nat) : (p.bridgeSample g out).switches = p.switches := by
  rw [p.bridgeSample_only]
  rfl

theorem Ppc.bridgeSample_alone (p : Ppc) (g : BridgeSample) (out : Nat) : (p.bridgeSample g out).bridge.alone = p.bridge.alone := by
  rw [p.bridgeSample_only]

theorem State.bridgeTap_safe {s : State} (h : s.ppc.safe) (b : List Byte) : (s.bridgeTap b).ppc.safe := by
  have hb := Ppc.bridgeSample_steady h.steady (BridgeSample.ofPayload b) s.lmc.out
  rcases s.bridgeTap_cases b with ⟨_, ht⟩ | ⟨_, _, ht⟩ | ⟨_, _, _, ht⟩ <;> rw [ht]
  · exact h
  · refine State.ppcQuiet_safe ((Ppc.safe_iff _).2 ⟨hb, ?_⟩) _
    rw [Ppc.bridgeSample_alone, h.inStep, Ppc.carriesAlone_congr (s.ppc.bridgeSample_switches _ _)]
  · exact s.ppcSettle_safe hb.ordered.select _

theorem State.braceOn_safe {s : State} (h : s.ppc.safe) : s.braceOn.ppc.safe :=
  State.ppcEnd_safe h (Ppc.braceOn_steady h.steady) s.ppc.braceOn_alone _

theorem State.braceOff_safe {s : State} (h : s.ppc.safe) : s.braceOff.ppc.safe :=
  State.ppcEnd_safe h (Ppc.braceOff_steady h.steady) s.ppc.braceOff_alone _

theorem State.deliverPBlMax_safe {s : State} (h : s.ppc.safe) (v : Nat) : (s.deliverPBlMax v).ppc.safe := by
  unfold State.deliverPBlMax
  split
  · exact h
  · exact s.ppcSettle_safe (h.steady.settings rfl) _

theorem State.editPack_safe {s : State} (h : s.ppc.safe) (x : Slot) {g : Pack → Pack}
    (hg : ∀ k, g k = { k with lever := (g k).lever, presPin := (g k).presPin, leverPin := (g k).leverPin }) :
    (s.editPack x g).ppc.safe := by
  have hk : ∀ k : Pack, (g k).state = k.state ∧ (g k).switch = k.switch := fun k => by rw [hg]; exact ⟨rfl, rfl⟩
  refine Ppc.safe.setPack h ?_ (hk _).2 (by rw [(hk _).1]; exact id)
  rw [hg]
  exact (h.steady.ordered.record x).congr rfl rfl rfl rfl rfl rfl

theorem Pack.safe.tick {k : Pack} (h : k.safe) : k.tick.safe :=
  h.congr rfl rfl rfl rfl rfl (by simp [Pack.tick, tickTimer])

theorem Window.tick_none (w : Window) : w.tick = .none ↔ w = .none := by cases w <;> simp [Window.tick]

theorem State.tick_safe {s : State} (h : s.ppc.safe) : s.tick.ppc.safe := by
  obtain ⟨ha, hb, hone, hdc, honly, hwait, hcell, hneed, halone, hwin⟩ := h
  refine ⟨ha.tick, hb.tick, hone, hdc, honly, hwait, hcell, hneed, halone, fun hw => hwin fun hn => hw ?_⟩
  exact (Window.tick_none _).2 hn

/-! ### The deliveries of MTM and SRT -/

theorem State.deliverPhase_safe {s : State} (h : s.ppc.safe) (old new : Phase) : (s.deliverPhase old new).ppc.safe := by
  unfold State.deliverPhase
  split
  · exact h
  · rw [State.setRqh_ppc]
    split
    · simpa using State.braceOn_safe h
    · split
      · simpa using State.braceOff_safe h
      · exact h

theorem State.mtmEnd_safe {s : State} (h : s.ppc.safe) (r : Motion) : (s.mtmEnd r).ppc.safe :=
  State.deliverPhase_safe (by simpa using h) _ _

theorem State.tapDeliver_safe {s : State} (h : s.ppc.safe) (r : TapRole) (i : Nat) (x : Sample) :
    (s.tapDeliver r i x).ppc.safe := by
  unfold State.tapDeliver
  split
  · exact h
  · split
    · simpa using h
    · cases r with
      | noTap => exact h
      | accel => exact State.mtmEnd_safe h _
      | lightFront | lightTop => simpa using h
      | gaugeA | gaugeB => exact State.gaugeTap_safe h _ _
      | bridge => exact State.bridgeTap_safe h _

theorem State.routeSample_safe {s : State} (h : s.ppc.safe) (x : Sample) : (s.routeSample x).ppc.safe := by
  unfold State.routeSample
  split
  · simpa using h
  · split
    · simpa using h
    · exact State.tapDeliver_safe (by simpa using h) _ _ _

/-! ### Requests -/

/-- The owner's event keeps PPC safe. -/
def KeepsSafe (owner : List Byte → State → Answer) : Prop := ∀ a s, s.ppc.safe → (owner a s).state.ppc.safe

/-- The owner's event leaves PPC alone. -/
def KeepsPpc (owner : List Byte → State → Answer) : Prop := ∀ a s, (owner a s).state.ppc = s.ppc

theorem KeepsPpc.safe {owner : List Byte → State → Answer} (h : KeepsPpc owner) : KeepsSafe owner := fun a s hs => by
  rwa [h a s]

theorem KeepsSafe.serve {owner : List Byte → State → Answer} (h : KeepsSafe owner) {s : State} (hs : s.ppc.safe)
    (c : RequestCode) : (s.serve c owner).ppc.safe := by
  rcases s.serve_cases c owner with ht | ⟨r, _, _, ht | ht | ht⟩ <;> rw [ht]
  · exact hs
  · rwa [State.answer_ppc]
  · rwa [State.answer_ppc]
  · rw [State.answer_ppc]; exact h _ _ hs

theorem KeepsPpc.serve {owner : List Byte → State → Answer} (h : KeepsPpc owner) {s : State} (hs : s.ppc.safe)
    (c : RequestCode) : (s.serve c owner).ppc.safe := h.safe.serve hs c

theorem packProfileOwner_safe : KeepsSafe packProfileOwner := fun a s h => by
  unfold packProfileOwner
  dsimp only
  split
  · exact s.ppcSettle_safe (Ppc.withProfile_steady h.steady _) _
  · exact h

theorem packReleaseOwner_safe : KeepsSafe packReleaseOwner := fun a s h => by
  unfold packReleaseOwner
  split
  · exact h
  · next x _ =>
    have hend := State.ppcEnd_switched_safe h (Ppc.release_steady h.steady x s.idlePhase .attended)
      (s.ppc.release_switched x s.idlePhase .attended)
    dsimp only
    split
    · exact h
    · exact hend _
    · exact hend _

theorem powerSetOwner_safe : KeepsSafe powerSetOwner := fun a s h => by
  unfold powerSetOwner
  dsimp only
  split
  · exact h
  · exact s.ppcSettle_safe (h.steady.settings rfl) _

theorem bridgeSetOwner_safe : KeepsSafe bridgeSetOwner := fun a s h => by
  unfold bridgeSetOwner
  dsimp only
  split
  · exact h
  · exact s.ppcSettle_safe (h.steady.settings rfl) _

theorem lightSetOwner_safe : KeepsSafe lightSetOwner := fun a s h => by
  unfold lightSetOwner
  dsimp only
  split
  · exact State.deliverPBlMax_safe (by simpa using h) _
  · exact h

theorem restartOwner_safe : KeepsSafe restartOwner := fun a s h => by
  unfold restartOwner
  split
  · exact State.ppcSettle_safe _ (Ppc.restarted_steady h.steady) _
  · exact h

theorem curveHeaderOwner_ppc : KeepsPpc curveHeaderOwner := fun a s => by
  unfold curveHeaderOwner; dsimp only; split <;> simp
theorem curvePointOwner_ppc : KeepsPpc curvePointOwner := fun a s => by
  unfold curvePointOwner; dsimp only; split <;> simp
theorem blBiasOwner_ppc : KeepsPpc blBiasOwner := fun a s => by simp [blBiasOwner]
theorem blForceOwner_ppc : KeepsPpc blForceOwner := fun a s => by simp [blForceOwner]
theorem blReleaseOwner_ppc : KeepsPpc blReleaseOwner := fun a s => by
  unfold blReleaseOwner; dsimp only; split <;> simp
theorem motionSetOwner_ppc : KeepsPpc motionSetOwner := fun a s => by
  unfold motionSetOwner; dsimp only; split <;> simp
theorem dropReadOwner_ppc : KeepsPpc dropReadOwner := fun a s => by
  unfold dropReadOwner; split <;> rfl
theorem dropReleaseOwner_ppc : KeepsPpc dropReleaseOwner := fun a s => by
  unfold dropReleaseOwner
  split
  · rfl
  · dsimp only; split <;> simp
theorem eventConfigOwner_ppc : KeepsPpc eventConfigOwner := fun a s => by
  unfold eventConfigOwner; dsimp only; repeat' split
  all_goals simp
theorem noticeEnableOwner_ppc : KeepsPpc noticeEnableOwner := fun a s => by
  unfold noticeEnableOwner; dsimp only; repeat' split
  all_goals simp
theorem countReadOwner_ppc : KeepsPpc countReadOwner := fun a s => by
  unfold countReadOwner; dsimp only; repeat' split
  all_goals simp
theorem routeReadOwner_ppc : KeepsPpc routeReadOwner := fun a s => by
  unfold routeReadOwner; dsimp only; split <;> rfl
theorem passOwner_ppc : KeepsPpc passOwner := fun a s => by
  unfold passOwner State.offerPort; dsimp only; repeat' split
  all_goals simp
theorem routeWriteOwner_ppc : KeepsPpc routeWriteOwner := fun a s => by
  unfold routeWriteOwner; dsimp only; repeat' split
  all_goals simp
theorem routeFlushOwner_ppc : KeepsPpc routeFlushOwner := fun a s => by
  rw [routeFlushOwner_eq, State.collide_ppc, State.setSrt_ppc]
theorem countSnapshotOwner_ppc : KeepsPpc countSnapshotOwner := fun a s => by
  unfold countSnapshotOwner
  rw [Answer.ok_state]
  split <;> rfl

/-! ### Every command -/

theorem State.finishRestart_safe {s : State} (h : s.ppc.safe) : s.finishRestart.ppc.safe := by
  unfold State.finishRestart
  split
  · exact restartOwner_safe.serve h _
  · exact h

theorem State.receivePort_safe {s : State} (h : s.ppc.safe) (p : PortId) (f : WireFrame) : (s.receivePort p f).ppc.safe := by
  unfold State.receivePort
  split
  · exact State.routeSample_safe (s := s.finishRestart.editPort p _) (State.finishRestart_safe h) _
  · exact h

theorem State.attend_safe {s : State} (h : s.ppc.safe) : s.attend.ppc.safe := by
  unfold State.attend
  split
  · rw [State.deliverRegime_ppc, State.setLki_ppc]
    exact h
  · exact h

theorem State.receiveUplink_safe {s : State} (h : s.ppc.safe) (f : WireFrame) : (s.receiveUplink f).ppc.safe := by
  unfold State.receiveUplink
  dsimp only
  split
  · unfold State.validRequest
    rw [State.admitRequest_ppc]
    exact State.attend_safe h
  · rwa [State.linkError_ppc]

/-- Every command keeps PPC safe. -/
theorem exec_safe {c : Instr} {s t : State} (h : s.ppc.safe) (hx : exec c s = .next t) : t.ppc.safe := by
  have hr := fun x => h.steady.ordered.record x
  cases c with
  | powerOnReset pins =>
    obtain rfl := Host.Outcome.next.inj hx
    exact State.ppcSettle_safe _ (Ppc.powerOn_steady pins) _
  | requestFrameReceived f | uplinkFrameDiscarded f =>
    obtain rfl := Host.Outcome.next.inj hx
    exact State.receiveUplink_safe h f
  | sampleFrameReceived p f | badSampleFrame p f =>
    obtain rfl := Host.Outcome.next.inj hx
    exact State.receivePort_safe h p f
  | uplinkByteGap | portByteGap _ | transmitComplete | lightStaleExpiry _ | holdOffExpiry =>
    obtain rfl := Host.Outcome.next.inj hx
    split <;> simpa using h
  | uplinkFrameStart | portFrameStart _ | passSendComplete _ | stepExpiry =>
    obtain rfl := Host.Outcome.next.inj hx
    exact h
  | silenceTimeoutExpiry =>
    obtain rfl := Host.Outcome.next.inj hx
    split
    · rw [State.deliverRegime_ppc, State.setLki_ppc]
      exact h
    · exact h
  | rawInputChange pin _ =>
    obtain rfl := Host.Outcome.next.inj hx
    cases pin <;> exact State.editPack_safe h _ fun _ => rfl
  | leverRelease _ =>
    obtain rfl := Host.Outcome.next.inj hx
    split
    · exact State.editPack_safe h _ fun _ => rfl
    · exact h
  | seating x =>
    obtain rfl := Host.Outcome.next.inj hx
    split
    · exact h
    · next hp => exact State.ppcEnd_switched_safe h (Ppc.seat_steady h.steady.ordered (by simpa using hp)) (s.ppc.seat_switched x) _
  | presenceLoss x =>
    obtain rfl := Host.Outcome.next.inj hx
    have hlost := State.ppcEnd_switched_safe h (Ppc.lose_steady h.steady.ordered x s.idlePhase) (s.ppc.lose_switched x _)
    split
    · exact h
    · dsimp only
      split
      · rw [State.reportDislodged_ppc]; exact hlost _
      · exact hlost _
  | leverPress x =>
    obtain rfl := Host.Outcome.next.inj hx
    split
    · exact h
    · have hlever : (s.ppc.setPack x ((s.ppc.pack x).withLever true)).Steady :=
        h.steady.setPack ((hr x).congr rfl rfl rfl rfl rfl rfl) rfl id
      exact State.ppcEnd_switched_safe h (Ppc.release_steady hlever x _ _)
        ((s.ppc.setPack_switched x _).trans (Ppc.release_switched _ x _ _)) _
  | dcinOkChange level =>
    obtain rfl := Host.Outcome.next.inj hx
    split
    · exact h
    · next hl => exact s.ppcSettle_safe (Ppc.dcChange_steady h.steady.ordered hl) _
  | brPresChange level =>
    obtain rfl := Host.Outcome.next.inj hx
    split
    · exact h
    · exact s.ppcSettle_safe (Ppc.bridgeFit_steady h.steady level) _
  | qualTimeoutExpiry x =>
    obtain rfl := Host.Outcome.next.inj hx
    split
    · next hq =>
      obtain ⟨hs, _⟩ : (s.ppc.pack x).state = .qualifying ∧ (s.ppc.pack x).qualTimer.isSome = true := by simpa using hq
      exact State.ppcEnd_switched_safe h
        (Ppc.enterFault_steady h.steady.ordered (by simp [hs]) (by simp [hs]) .qualifyTimeout s.idlePhase) (s.ppc.enterFault_switched x _ _) _
    · exact h
  | gaugeStaleExpiry x =>
    obtain rfl := Host.Outcome.next.inj hx
    have hst := Ppc.gaugeStale_steady h.steady x
    split
    · exact h
    · split
      · exact s.ppcSettle_safe hst _
      · refine State.ppcQuiet_safe ?_ _
        have hk : ({ s.ppc.pack x with staleTimer := none, stale := true } : Pack).safe := (hr x).congr rfl rfl rfl rfl rfl rfl
        exact h.setPack (hk.reallow _) (Pack.reallow_switch _ _) (by rw [Pack.reallow_state]; exact id)
  | releaseConfirmExpiry x =>
    obtain rfl := Host.Outcome.next.inj hx
    split
    · next hc =>
      obtain ⟨hs, ht⟩ : (s.ppc.pack x).state = .releasing ∧ (s.ppc.pack x).confirmTimer.isSome = true := by simpa using hc
      exact State.ppcEnd_switched_safe h (Ppc.confirm_steady h.steady hs ((hr x).unpending_of_confirm ht) _)
        (s.ppc.confirm_switched x _) _
    · exact h
  | unlockHoldExpiry x =>
    obtain rfl := Host.Outcome.next.inj hx
    split
    · next hu =>
      obtain ⟨hs, _⟩ : (s.ppc.pack x).state = .unlocked ∧ (s.ppc.pack x).holdTimer.isSome = true := by simpa using hu
      exact State.ppcEnd_switched_safe h (Ppc.relock_steady h.steady.ordered hs) (s.ppc.relock_switched x) _
    · exact h
  | transferSettleExpiry =>
    obtain rfl := Host.Outcome.next.inj hx
    split
    · exact State.ppcEnd_switched_safe h (Ppc.settleExpiry_steady h.steady) s.ppc.settleExpiry_switched _
    · exact h
  | swapWindowExpiry =>
    obtain rfl := Host.Outcome.next.inj hx
    split
    · exact s.ppcSettle_safe (Ppc.exhaust_steady h.steady.ordered) _
    · exact h
  | accelStaleExpiry | protectHoldExpiry =>
    obtain rfl := Host.Outcome.next.inj hx
    split
    · exact State.mtmEnd_safe h _
    · exact h
  | identify | linkStatus | powerStatus | curveRead | blStatus | motionStatus | linkSet | eventReadClear =>
    obtain rfl := Host.Outcome.next.inj hx
    exact KeepsPpc.serve (fun _ _ => rfl) h _
  | holdNotices =>
    obtain rfl := Host.Outcome.next.inj hx
    exact KeepsPpc.serve (fun a s => s.holdNotices_ppc _) h _
  | packStatus =>
    obtain rfl := Host.Outcome.next.inj hx
    exact KeepsPpc.serve (fun a s => by split <;> rfl) h _
  | packProfileWrite => exact Host.Outcome.next.inj hx ▸ packProfileOwner_safe.serve h _
  | packRelease => exact Host.Outcome.next.inj hx ▸ packReleaseOwner_safe.serve h _
  | powerSet => exact Host.Outcome.next.inj hx ▸ powerSetOwner_safe.serve h _
  | bridgeSet => exact Host.Outcome.next.inj hx ▸ bridgeSetOwner_safe.serve h _
  | lightSet => exact Host.Outcome.next.inj hx ▸ lightSetOwner_safe.serve h _
  | restart => exact Host.Outcome.next.inj hx ▸ restartOwner_safe.serve h _
  | routeWrite => exact Host.Outcome.next.inj hx ▸ routeWriteOwner_ppc.serve h _
  | routeFlush => exact Host.Outcome.next.inj hx ▸ routeFlushOwner_ppc.serve h _
  | routeRead => exact Host.Outcome.next.inj hx ▸ routeReadOwner_ppc.serve h _
  | countSnapshot => exact Host.Outcome.next.inj hx ▸ countSnapshotOwner_ppc.serve h _
  | countRead => exact Host.Outcome.next.inj hx ▸ countReadOwner_ppc.serve h _
  | pass => exact Host.Outcome.next.inj hx ▸ passOwner_ppc.serve h _
  | curveWriteHeader => exact Host.Outcome.next.inj hx ▸ curveHeaderOwner_ppc.serve h _
  | curveWritePoint => exact Host.Outcome.next.inj hx ▸ curvePointOwner_ppc.serve h _
  | blBias => exact Host.Outcome.next.inj hx ▸ blBiasOwner_ppc.serve h _
  | blForce => exact Host.Outcome.next.inj hx ▸ blForceOwner_ppc.serve h _
  | blRelease => exact Host.Outcome.next.inj hx ▸ blReleaseOwner_ppc.serve h _
  | motionSet => exact Host.Outcome.next.inj hx ▸ motionSetOwner_ppc.serve h _
  | dropRead => exact Host.Outcome.next.inj hx ▸ dropReadOwner_ppc.serve h _
  | dropRelease => exact Host.Outcome.next.inj hx ▸ dropReleaseOwner_ppc.serve h _
  | eventConfig => exact Host.Outcome.next.inj hx ▸ eventConfigOwner_ppc.serve h _
  | noticeEnable => exact Host.Outcome.next.inj hx ▸ noticeEnableOwner_ppc.serve h _
  | unknownRequest =>
    obtain rfl := Host.Outcome.next.inj hx
    split
    · split <;> simpa using h
    · exact h

/-- Settles O4: every command keeps PPC safe (`exec_safe`), and a millisecond moves only timers. -/
theorem switchesStaySafe : Obligations.SwitchesStaySafe := by
  unfold Obligations.SwitchesStaySafe
  intro s t h hstep
  unfold step at hstep
  split at hstep
  · next c rest _ =>
    have hrest : (s.setPending rest).ppc.safe := by rwa [State.setPending_ppc]
    exact exec_safe hrest hstep
  · split at hstep
    · exact exec_safe h hstep
    · obtain rfl := Host.Outcome.next.inj hstep
      exact State.tick_safe h

end Sys2Proof.Machine
end

section
/-! The state after reset, the debounce of the pins, the commands that the state rules out, and the requests that only report. -/

namespace Sys2Proof.Machine

/-! ### Reset -/

theorem State.reset_ntu :
    State.reset.ntu = Ntu.fresh Event.powerOn.code (liveCodes State.reset.ppc State.reset.lmc State.reset.mtm) :=
  Ntu.initial_eq _

theorem State.reset_eventsTrue : State.reset.eventsTrue := by
  rw [State.eventsTrue, State.reset_ntu]
  refine ⟨Ntu.fresh_length _ _, fun k e he => ?_⟩
  rw [Ntu.fresh_entry he]
  refine ⟨fun hn => absurd hn Bool.false_ne_true, liveCodes_contains State.reset k, ?_⟩
  unfold EventEntry.initial
  cases hardLevel k <;> simp

/-- Settles O12: each invariant is evaluated on the one state; the route table is the factory's, and the event table a fresh
one whose live flags are the conditions (R148). -/
theorem resetIsSafe : Obligations.ResetIsSafe := by
  unfold Obligations.ResetIsSafe
  refine ⟨?_, ?_, ?_, ?_, State.reset_eventsTrue, Srt.factory_sound, ?_, ?_⟩
  · simp [Ppc.safe, Pack.safe, State.reset, Ppc.initial, Pack.initial, Pins.inactive, Pins.heldOutputs, Ppc.carriesAlone]
  · simp [Ppc.settled, State.reset, Ppc.initial, Pack.initial, Pins.inactive, Pins.heldOutputs]
  · simp [State.underCeiling, State.reset, Ppc.initial, Lmc.initial]
  · simp [State.copiesAgree, State.reset, Rqh.initial, Mtm.initial, Ppc.initial, Lmc.initial, Lki.initial, Srt.factory, State.park,
      State.restartGranted,
      factoryPBlMax, LightSettings.factory]
  · simp [State.queuesSound, State.headWaits, State.reset, Rqh.initial, Lki.initial, Lki.replyCount, Lki.busyCount]
  · simp [Mtm.sound, State.reset, Mtm.initial, Phase.recording]

/-! ### Pins -/

/-- Settles O26: a raw change edits its own pin, and the release of a pressed lever its own record (R24). -/
theorem rawInputsDebounce : Obligations.RawInputsDebounce := by
  unfold Obligations.RawInputsDebounce
  refine fun x level s => ⟨⟨_, rfl, rfl⟩, ⟨_, rfl, rfl⟩, fun h => ⟨_, rfl, ?_⟩⟩
  rw [if_pos h]
  rfl

/-! ### Ruled out commands -/

/-- A request that is not in progress is not served (log entry 2). -/
theorem State.serve_not_in_progress (s : State) (c : RequestCode) (owner : List Byte → State → Answer)
    (h : s.rqh.inProgress.all (fun r => r.code != c.byte) = true) : s.serve c owner = s := by
  unfold State.serve
  cases hr : s.rqh.inProgress with
  | none => rfl
  | some r => rw [hr] at h; exact if_pos h

theorem State.rulesOut_row {s : State} (c : RequestCode) (h : s.rulesOut c.row = true) :
    s.rqh.inProgress.all (fun r => r.code != c.byte) = true := by
  cases c <;> simpa [State.rulesOut, RequestCode.row, RequestCode.all] using h

/-- Settles O38: each arm tests what the state rules out, and a request row serves only the request in progress. -/
theorem ruledOutCommandsChangeNothing : Obligations.RuledOutCommandsChangeNothing := by
  unfold Obligations.RuledOutCommandsChangeNothing
  intro i s h
  have hserve : ∀ (c : RequestCode) (owner : List Byte → State → Answer), s.rulesOut c.row = true →
      Host.Outcome.next (s.serve c owner) = (.next s : Host.Outcome State Fault Refusal) := fun c owner hc => by
    rw [s.serve_not_in_progress c owner (State.rulesOut_row c hc)]
  cases i with
  | powerOnReset _ | requestFrameReceived _ | uplinkFrameDiscarded _ | sampleFrameReceived _ _ | badSampleFrame _ _
  | passSendComplete _ | rawInputChange _ _ | stepExpiry | uplinkFrameStart | portFrameStart _ =>
    simp [State.rulesOut, RequestCode.all, RequestCode.row] at h
  | seating _ | presenceLoss _ | leverPress _ => exact congrArg _ (if_pos h)
  | dcinOkChange _ | brPresChange _ => exact congrArg _ (if_pos (beq_iff_eq.1 h))
  | leverRelease _ => exact congrArg _ (if_neg (by simpa [State.rulesOut] using h))
  | uplinkByteGap | portByteGap _ => exact congrArg _ (if_neg (by rw [beq_iff_eq.1 h]; exact nofun))
  | gaugeStaleExpiry _ => exact congrArg _ (if_pos h)
  | qualTimeoutExpiry _ | releaseConfirmExpiry _ | unlockHoldExpiry _ | transferSettleExpiry | lightStaleExpiry _ | accelStaleExpiry
  | protectHoldExpiry | holdOffExpiry | silenceTimeoutExpiry | transmitComplete =>
    refine congrArg _ (if_neg ?_)
    simp_all [State.rulesOut]
  | swapWindowExpiry =>
    simp only [State.rulesOut, Bool.or_eq_true, beq_iff_eq] at h
    rcases h with h | h <;> simp only [exec, execSwapWindowExpiry, h]
  | unknownRequest =>
    simp only [exec, execUnknownRequest]
    split
    · next r hr =>
      simp only [State.rulesOut, hr, Option.all_some] at h
      exact congrArg _ (if_neg (by simp [← Option.not_isSome, h]))
    · rfl
  | identify => exact hserve .identify _ h
  | linkSet => exact hserve .linkSet _ h
  | linkStatus => exact hserve .linkStatus _ h
  | routeWrite => exact hserve .routeWrite _ h
  | routeRead => exact hserve .routeRead _ h
  | routeFlush => exact hserve .routeFlush _ h
  | countSnapshot => exact hserve .countSnapshot _ h
  | countRead => exact hserve .countRead _ h
  | pass => exact hserve .pass _ h
  | packProfileWrite => exact hserve .packProfileWrite _ h
  | packStatus => exact hserve .packStatus _ h
  | packRelease => exact hserve .packRelease _ h
  | powerSet => exact hserve .powerSet _ h
  | bridgeSet => exact hserve .bridgeSet _ h
  | powerStatus => exact hserve .powerStatus _ h
  | lightSet => exact hserve .lightSet _ h
  | curveWriteHeader => exact hserve .curveWriteHeader _ h
  | curveWritePoint => exact hserve .curveWritePoint _ h
  | curveRead => exact hserve .curveRead _ h
  | blBias => exact hserve .blBias _ h
  | blForce => exact hserve .blForce _ h
  | blRelease => exact hserve .blRelease _ h
  | blStatus => exact hserve .blStatus _ h
  | motionSet => exact hserve .motionSet _ h
  | motionStatus => exact hserve .motionStatus _ h
  | dropRead => exact hserve .dropRead _ h
  | dropRelease => exact hserve .dropRelease _ h
  | eventConfig => exact hserve .eventConfig _ h
  | noticeEnable => exact hserve .noticeEnable _ h
  | eventReadClear => exact hserve .eventReadClear _ h
  | holdNotices => exact hserve .holdNotices _ h
  | restart => exact hserve .restart _ h

/-! ### The requests that only report -/

theorem slotOfCode_eq_none {n : Nat} (h : 1 < n) : slotOfCode n = none := by
  unfold slotOfCode
  rw [if_neg (by omega), if_neg (by omega)]

theorem slotOfCode_of_byte (x : Slot) : slotOfCode (u8 [if x = .a then 0#8 else 1#8] 0) = some x := by cases x <;> rfl

/-- The PACK_STATUS payload, field by field (R45, R172). -/
theorem Pack.statusBytes_eq (k : Pack) : k.statusBytes =
    [BitVec.ofNat 8 k.state.code] ++ flag (!k.presence) ++ flag (!k.lever) ++ flag (!k.lock) ++ flag k.switch
      ++ (match k.sample with
          | none => List.replicate 13 0#8
          | some g => 1#8 :: (le16 g.voltage ++ sle16 g.current ++ sle16 g.temperature ++ le32 g.energy
              ++ flag g.fault ++ flag g.charging))
      ++ optField 2 le16 k.age ++ flag k.stale ++ [BitVec.ofNat 8 k.qual] ++ le32 k.allowance
      ++ optField 1 (fun c => [BitVec.ofNat 8 c.code]) k.faultCause
      ++ optField 1 (fun c => [BitVec.ofNat 8 c.code]) k.lastRefusal
      ++ optField 1 (fun c => [BitVec.ofNat 8 c.code]) k.lossCause ++ flag k.lockPending
      ++ optField 2 le16 k.qualTimer ++ optField 2 le16 k.confirmTimer ++ optField 2 le16 k.holdTimer
      ++ optField 2 le16 k.staleTimer := by
  unfold Pack.statusBytes
  cases k.sample <;> rfl

/-- The POWER_STATUS payload, field by field (R64, R172). -/
theorem Ppc.statusBytes_eq (p : Ppc) : p.statusBytes =
    flag p.swDc ++ flag p.packA.switch ++ flag p.packB.switch ++ flag p.bridge.switch ++ flag p.dcinOk ++ flag p.bridge.fitted
      ++ flag p.brace ++ flag p.bridge.alone ++ le32 p.budget.pAv ++ le16 p.budget.aBl ++ le16 p.budget.cPower
      ++ (match p.bridge.window with
          | .none => [0#8, 0#8, 0#8, 0#8, 0#8, 0#8]
          | .waiting => [1#8, 0#8, 0#8, 0#8, 0#8, 0#8]
          | .running ms => [2#8, 1#8] ++ le32 ms)
      ++ flag p.bridge.exhausted
      ++ (match p.bridge.last with
          | none => List.replicate 6 0#8
          | some g => 1#8 :: (le16 g.voltage ++ le16 g.charge ++ flag g.fault))
      ++ flag p.bridge.low ++ le16 p.power.pSys ++ le32 p.power.dcLimit ++ le16 p.power.margin
      ++ le16 p.bridgeSet.reserve ++ le16 p.bridgeSet.swapMin ++ le16 p.bridgeSet.compare ++ le32 p.bridgeSet.pmax := by
  unfold Ppc.statusBytes PowerSettings.bytes BridgeSettings.bytes
  simp only [List.append_assoc]
  cases p.bridge.window <;> cases p.bridge.last <;> rfl

/-- The BL_STATUS payload, the roles in their order (R82, R103, R172). -/
theorem Lmc.statusBytes_eq (m : Lmc) : m.statusBytes =
    [LightRole.front, .top].flatMap (fun r => flag (!(m.role r).live) ++ optField 4 le32 (m.role r).lux
        ++ optField 2 le16 (m.role r).timer)
      ++ optField 4 le32 m.e ++ optField 2 le16 m.lg ++ optField 2 le16 m.f ++ flag m.valid
      ++ flag m.freeze ++ [BitVec.ofNat 8 m.mode.code] ++ optField 2 le16 m.forced ++ sle16 m.bias
      ++ le16 m.t0 ++ le16 m.cPower ++ le16 m.target ++ le16 m.out
      ++ [BitVec.ofNat 8 m.regime.code] ++ le16 m.set.cUnatt ++ le16 m.stepTimer
      ++ optField 1 (fun i => [BitVec.ofNat 8 i]) m.curve.latch ++ flag m.curve.validationPending
      ++ flag (!m.curve.consistent) := by
  have hroles : [LightRole.front, .top].flatMap (fun r => flag (!(m.role r).live) ++ optField 4 le32 (m.role r).lux
      ++ optField 2 le16 (m.role r).timer) = m.front.statusBytes ++ m.top.statusBytes := by
    rw [List.flatMap_cons, List.flatMap_singleton]
    rfl
  rw [hroles]
  rfl

/-- The owner's event of PACK_STATUS (R45), under a name. -/
def packStatusOwner (a : List Byte) (s : State) : Answer :=
  match slotOfCode (u8 a 0) with
  | none => Answer.refuse s .badIndex
  | some x => Answer.ok s (s.ppc.pack x).statusBytes

theorem exec_packStatus (s : State) : exec .packStatus s = .next (s.serve .packStatus packStatusOwner) := rfl

theorem packStatusOwner_badIndex (s : State) {n : Byte} (h : 1 < n.toNat) : packStatusOwner [n] s = ⟨s, .badIndex, []⟩ := by
  simp only [packStatusOwner, u8, List.getD_cons_zero, slotOfCode_eq_none h]
  rfl

theorem packStatusOwner_ok (s : State) (x : Slot) :
    packStatusOwner [if x = .a then 0#8 else 1#8] s = ⟨s, .ok, (s.ppc.pack x).statusBytes⟩ := by
  simp only [packStatusOwner, slotOfCode_of_byte]
  rfl

theorem packStatusOwner_state (s : State) (a : List Byte) : ∃ st p, packStatusOwner a s = ⟨s, st, p⟩ := by
  unfold packStatusOwner
  split <;> exact ⟨_, _, rfl⟩

/-- Settles O48: each of the four owners answers on the state as it stands, with the payload spelled field by field. -/
theorem statusRequestsReport : Obligations.StatusRequestsReport := by
  unfold Obligations.StatusRequestsReport
  refine ⟨fun s tag => ⟨fun n h => ?_, fun h => ?_⟩, fun s tag => ⟨fun h => ?_, fun h => ?_⟩⟩
  · have hserve := fun st p => s.serve_only .packStatus packStatusOwner tag [n] st p h rfl rfl
    obtain ⟨st, p, hst⟩ := packStatusOwner_state s [n]
    refine ⟨_, exec_packStatus s, (hserve st p hst).2, fun hn => (hserve _ _ (packStatusOwner_badIndex s hn)).1, fun x hx => ?_⟩
    have hok := (hserve _ _ (hx ▸ packStatusOwner_ok s x)).1
    rwa [Pack.statusBytes_eq] at hok
  · have hok := s.serve_only .powerStatus (fun _ s => Answer.ok s s.ppc.statusBytes) tag [] _ _ h rfl rfl rfl
    rw [Ppc.statusBytes_eq] at hok
    exact ⟨_, rfl, hok.2, hok.1⟩
  · have hok := s.serve_only .curveRead (fun _ s => Answer.ok s s.lmc.curve.bytes) tag [] _ _ h rfl rfl rfl
    exact ⟨_, rfl, hok.2, hok.1⟩
  · have hok := s.serve_only .blStatus (fun _ s => Answer.ok s s.lmc.statusBytes) tag [] _ _ h rfl rfl rfl
    rw [Lmc.statusBytes_eq] at hok
    exact ⟨_, rfl, hok.2, hok.1⟩

end Sys2Proof.Machine
end

section
/-! What the end of an event of PPC says of the state (R56, R62): the frame of a slot's event, what carrying alone brings with it,
and what a reply or a report to MTM leaves of either. -/

namespace Sys2Proof.Machine

/-! ### After the event -/

/-- `t` is `u` but for the link and MTM: nothing of PPC, LMC and the event table changed, and every notice is carried on. -/
structure Settled (u t : State) : Prop where
  told : Told u t
  ppc : t.ppc = u.ppc
  lmc : t.lmc = u.lmc
  ntu : t.ntu = u.ntu

theorem Settled.refl (u : State) : Settled u u := ⟨.refl u, rfl, rfl, rfl⟩

theorem Settled.answer (u : State) (g : Byte) (st : Status) (p : List Byte) : Settled u (u.answer g st p) :=
  ⟨.answer u g st p, u.answer_ppc g st p, u.answer_lmc g st p, u.answer_ntu g st p⟩

theorem Settled.reportDislodged (u : State) (x : Slot) : Settled u (u.reportDislodged x) :=
  ⟨.of_same rfl rfl rfl, rfl, rfl, rfl⟩

section
variable {s u t : State}

theorem Settled.occurred (h : Settled u t) (h1 : Told s u) {e : Event} (ho : Occurred s u e) : Occurred s t e := ho.later h1 h.told

theorem Settled.conditionFollows (h : Settled u t) (h1 : Told s u) {e : Event} {v : Bool} (hc : ConditionFollows s u e v) :
    ConditionFollows s t e v := fun hlen => by
  obtain ⟨hlive, hrise, hstay⟩ := hc hlen
  rw [h.ntu]
  exact ⟨hlive, fun h0 hv => h.occurred h1 (hrise h0 hv), hstay⟩

theorem Settled.ceilingDelivered (h : Settled u t) (h1 : Told s u) {m : Lmc} (hc : CeilingDelivered m s u) :
    CeilingDelivered m s t := by
  obtain ⟨hd, hsame, hnew⟩ := hc
  unfold CeilingDelivered FaultFollows
  rw [h.ppc, h.lmc, h.ntu]
  refine ⟨hd, hsame, fun hne => ?_⟩
  obtain ⟨hout, hre, hff, hcut, hno⟩ := hnew hne
  exact ⟨hout, hre, h.conditionFollows h1 hff, fun hlen hlt => h.occurred h1 (hcut hlen hlt), hno⟩

theorem Settled.ceilingFollows (h : Settled u t) (h1 : Told s u) (hc : CeilingFollows s u) : CeilingFollows s t := fun hs =>
  h.ceilingDelivered h1 (hc hs)

theorem Settled.aloneFollows (h : Settled u t) (h1 : Told s u) (ha : AloneFollows s u) : AloneFollows s t := by
  obtain ⟨hbegin, hend⟩ := ha
  unfold AloneFollows
  dsimp only
  rw [h.ppc, h.ntu]
  refine ⟨fun h0 hb => ?_, hend⟩
  obtain ⟨hlive, hrise, hx, hwait, hrun⟩ := hbegin h0 hb
  refine ⟨hlive, fun hl => h.occurred h1 (hrise hl), hx, hwait, fun hxf g hg => ?_⟩
  obtain ⟨hw, hz⟩ := hrun hxf g hg
  exact ⟨hw, fun hw0 => ⟨(hz hw0).1, h.occurred h1 (hz hw0).2⟩⟩

end

/-! ### The frame of a slot's event -/

theorem OnlyPower.mono {s t : State} {es fs : List Event} (h : OnlyPower s t es) (hs : ∀ e ∈ es, e ∈ fs) : OnlyPower s t fs := by
  obtain ⟨hf, hl, hn⟩ := h
  refine ⟨hf, hl, Ntu.onlyEvents_mono hn fun e he => ?_⟩
  simp only [List.cons_append, List.mem_cons, List.mem_append] at he ⊢
  rcases he with he | he | (he | he) | he
  · exact .inl he
  · exact .inr (.inl he)
  · exact .inr (.inr (.inl (.inl (hs e he))))
  · exact .inr (.inr (.inl (.inr he)))
  · exact .inr (.inr (.inr he))

theorem OnlySlot.mono {s t : State} {x : Slot} {es fs : List Event} (h : OnlySlot s t x es) (hs : ∀ e ∈ es, e ∈ fs) :
    OnlySlot s t x fs := ⟨h.1.mono hs, h.2⟩

section
variable (s : State) {p : Ppc} {x : Slot} {ps : List Event}

/-- An event that only switches and leaves the other slot to selection is an event of slot `x`. -/
theorem State.ppcEnd_slot (hp : s.ppc.Switched p) (ho : (s.ppc.pack (otherSlot x)).onlySelected (p.pack (otherSlot x)))
    (hc : Event.ceilingCut ∉ ps) (hf : Event.curveFault ∉ ps) : OnlySlot s (s.ppcEnd p ps) x ps :=
  ⟨s.ppcEnd_only p ps, Ppc.onlySelection_trans hp.only (s.ppcEnd_onlySelection p ps),
    fun hs => (LightQuiet.refl s).delivered_ppcEnd hp.budget hs hc hf, by rwa [State.ppcEnd_ppc_pack]⟩

theorem State.ppcSettle_slot (hp : s.ppc.Switched p) (ho : (s.ppc.pack (otherSlot x)).onlySelected (p.pack (otherSlot x)))
    (hc : Event.ceilingCut ∉ ps) (hf : Event.curveFault ∉ ps) : OnlySlot s (s.ppcSettle p ps) x ps :=
  ⟨s.ppcSettle_only p ps, Ppc.onlySelection_trans hp.only (s.ppcSettle_onlySelection p ps),
    fun _ => (LightQuiet.refl s).delivered_ppcSettle (congrArg Budget.delivered hp.budget) hc hf, by rwa [State.ppcSettle_pack]⟩

theorem State.ppcQuiet_slot (hp : s.ppc.Switched p) (ho : (s.ppc.pack (otherSlot x)).onlySelected (p.pack (otherSlot x)))
    (hc : Event.ceilingCut ∉ ps) (hf : Event.curveFault ∉ ps) : OnlySlot s (s.ppcQuiet p ps) x ps :=
  ⟨s.ppcQuiet_only p ps, by rw [State.ppcQuiet_ppc]; exact hp.only,
    fun hs => (LightQuiet.refl s).delivered_ppcQuiet hp.budget hs hc hf, by rwa [State.ppcQuiet_ppc]⟩

end

/-- The other slot of an event that sets the record of slot `x` and runs selection. -/
theorem Ppc.setPack_select_other (p : Ppc) (x : Slot) (k : Pack) :
    (p.pack (otherSlot x)).onlySelected ((p.setPack x k).select.pack (otherSlot x)) := by
  have h := (p.setPack x k).select_pack (otherSlot x)
  rwa [Ppc.pack_setPack_other] at h

theorem Ppc.setPack_other (p : Ppc) (x : Slot) (k : Pack) :
    (p.pack (otherSlot x)).onlySelected ((p.setPack x k).pack (otherSlot x)) := by
  rw [Ppc.pack_setPack_other]
  exact Pack.onlySelected_refl _

/-- The own record of an event that sets it, out of selection's reach, and runs selection. -/
theorem Ppc.setPack_select_own (p : Ppc) (x : Slot) {k : Pack} (h1 : k.state ≠ .standby) (h2 : k.state ≠ .online) :
    (p.setPack x k).select.pack x = k := by
  rw [Ppc.select_pack_eq _ _ (by rwa [Ppc.pack_setPack]) (by rwa [Ppc.pack_setPack]), Ppc.pack_setPack]

/-! ### Carrying alone in a settlement -/

theorem Ppc.closedMainSince_of_alone {before p : Ppc} (h : p.carriesAlone = true) : before.closedMainSince p = false := by
  simp only [Ppc.carriesAlone, Ppc.mainClosed, Bool.and_eq_true, Bool.not_eq_true', Bool.or_eq_false_iff] at h
  obtain ⟨_, ⟨h1, h2⟩, h3⟩ := h
  simp [Ppc.closedMainSince, h1, h2, h3]

/-- The backlight level that the budget of `p` allows, exhaustion apart (R57). -/
def Ppc.allowedLevel (p : Ppc) : Nat := p.backlightAllowance p.availablePower * 4095 / p.pBlMax

/-- Carrying alone begins while the bridge is exhausted: there is no window (R60). -/
theorem Ppc.settle_begins_exhausted {before p : Ppc} {out : Nat} (ha : p.bridge.alone = false) (hc : p.carriesAlone = true)
    (hx : p.bridge.exhausted = true) :
    (before.settle p out).bridge = { p.bridge with alone := true, window := .none } := by
  have hm : before.closedMainSince p = false := Ppc.closedMainSince_of_alone hc
  simp [Ppc.settle, Ppc.windowStart, Ppc.settleBridge, ha, hc, hx, hm]

/-- Carrying alone begins without a sample: the window waits (R58). -/
theorem Ppc.settle_begins_waiting {before p : Ppc} {out : Nat} (ha : p.bridge.alone = false) (hc : p.carriesAlone = true)
    (hx : p.bridge.exhausted = false) (hl : p.bridge.last = none) :
    (before.settle p out).bridge = { p.bridge with alone := true, window := .waiting } := by
  simp [Ppc.settle, Ppc.windowStart, Ppc.settleBridge, ha, hc, hx, hl]

/-- Carrying alone begins with a sample: the window is computed (R56 step 4, R58). -/
theorem Ppc.settle_begins_sampled {before p : Ppc} {out : Nat} (ha : p.bridge.alone = false) (hc : p.carriesAlone = true)
    (hx : p.bridge.exhausted = false) {g : BridgeSample} (hl : p.bridge.last = some g) :
    (before.settle p out).bridge
        = ({ p.bridge with alone := true, window := .waiting } : Bridge).withWindow (p.windowMs g.charge (min out p.allowedLevel))
      ∧ (before.settle p out).budget.aBl * 4095 / (before.settle p out).pBlMax = p.allowedLevel := by
  simp [Ppc.settle, Ppc.windowStart, Ppc.settleBridge, ha, hc, hx, hl, Ppc.allowedLevel]

/-- Carrying alone ends: the window is cancelled (R56). -/
theorem Ppc.settle_ends {before p : Ppc} {out : Nat} (ha : p.bridge.alone = true) (hc : p.carriesAlone = false) :
    (before.settle p out).bridge.window = .none := by
  simp [Ppc.settle, Ppc.windowStart, Ppc.settleBridge, ha, hc]

theorem Bridge.withWindow_holds {b : Bridge} (hx : b.exhausted = false) (w : Nat) : (b.withWindow w).holds w := by
  unfold Bridge.holds Bridge.withWindow
  refine ⟨fun hw => ?_, fun hw => ?_⟩
  · rw [if_neg (by omega)]; exact ⟨rfl, hx⟩
  · rw [if_pos hw]; exact ⟨rfl, rfl⟩

theorem Ppc.delivers_bridgeAlone (p : Ppc) : Delivers p.conditions .bridgeAlone p.bridge.alone := by
  simp [Delivers, Ppc.conditions]

theorem Reached.occurred_exhaustion {s u : State} (h : Reached s u) (hlen : s.ntu.table.length = 32) {p : Ppc} {ps : List Event}
    (he : Event.bridgeExhausted ∈ u.exhaustion p) : Occurred s (u.ppcSettle p ps) .bridgeExhausted := by
  have hquiet : ∀ q, Occurred s (u.ppcQuiet q (ps ++ u.exhaustion p)) .bridgeExhausted := fun q =>
    Told.occurred_of_pulse (u.setPpc q) q.conditions (h.told.trans (.of_same rfl rfl rfl)) hlen (List.mem_append_right _ he) (.refl _)
  rcases u.ppcSettle_cases p ps with ht | ht <;> rw [ht]
  · exact hquiet _
  · exact (hquiet _).later (h.told.trans (.ppcQuiet u _ _)) (.deliverCeiling _ _)

section
variable {s u : State} (h : Reached s u) (hlen : s.ntu.table.length = 32) {p : Ppc} {ps : List Event}
  (hb : p.bridge = { s.ppc.bridge with switch := p.bridge.switch }) (hps : Event.bridgeAlone ∉ ps)
include h hlen hb hps

/-- What a settlement does where carrying alone begins or ends (R56, R58 to R60). -/
theorem Reached.alone_ppcSettle : AloneFollows s (u.ppcSettle p ps) := by
  have hppc := u.ppcSettle_ppc p ps
  have hbr : (u.ppcSettle p ps).ppc.bridge = (u.ppc.settle p u.lmc.out).bridge := by rw [hppc]
  have hfollow := h.follows_ppcSettle (p := p) (ps := ps) (by decide) hps (Ppc.delivers_bridgeAlone _) hlen
  have halone : p.bridge.alone = s.ppc.bridge.alone := by rw [hb]
  have hexh : p.bridge.exhausted = s.ppc.bridge.exhausted := by rw [hb]
  have hlast : p.bridge.last = s.ppc.bridge.last := by rw [hb]
  unfold AloneFollows
  dsimp only
  rw [← halone, ← hexh, ← hlast]
  have hca : (u.ppcSettle p ps).ppc.bridge.alone = p.carriesAlone := by rw [hbr, Ppc.settle_alone]
  rw [hca]
  refine ⟨fun ha hc => ?_, fun ha hc => by rw [hbr]; exact Ppc.settle_ends ha hc⟩
  rw [hca, hc] at hfollow
  refine ⟨hfollow.1, fun hl => hfollow.2.1 hl rfl, fun hx => ?_, fun hx hl => ?_, fun hx g hg => ?_⟩
  · rw [hbr, Ppc.settle_begins_exhausted ha hc hx]; exact ⟨rfl, hx⟩
  · rw [hbr, Ppc.settle_begins_waiting ha hc hx hl]; exact ⟨rfl, hx⟩
  · obtain ⟨hset, hlevel⟩ := Ppc.settle_begins_sampled (before := u.ppc) (out := u.lmc.out) ha hc hx hg
    have hw : p.windowMs g.charge (min u.lmc.out p.allowedLevel) = swapWindow g.charge (u.ppcSettle p ps).ppc.bridgeSet.reserve
        ((u.ppcSettle p ps).ppc.loadAt (min s.lmc.out
          ((u.ppcSettle p ps).ppc.budget.aBl * 4095 / (u.ppcSettle p ps).ppc.pBlMax))) := by
      rw [Ppc.windowMs_eq, hppc]
      dsimp only
      rw [hlevel, h.lmc, Ppc.settle_bridgeSet]
      simp [Ppc.loadAt]
    rw [← hw, hbr, hset]
    have hholds := Bridge.withWindow_holds (b := { p.bridge with alone := true, window := .waiting }) hx
      (p.windowMs g.charge (min u.lmc.out p.allowedLevel))
    refine ⟨hholds, fun hw0 => ?_⟩
    have hxt : (u.ppc.settle p u.lmc.out).bridge.exhausted = true := by rw [hset]; exact (hholds.2 hw0).2
    refine ⟨?_, h.occurred_exhaustion hlen (by simp [State.exhaustion, hxt, hx])⟩
    rw [hppc]
    exact (Ppc.settle_settled u.ppc p u.lmc.out).2.2.trans (if_pos hxt)

theorem Reached.alone_ppcEnd : AloneFollows s (u.ppcEnd p ps) := by
  unfold State.ppcEnd
  split
  · have halone : (u.ppcQuiet p ps).ppc.bridge.alone = s.ppc.bridge.alone := by rw [State.ppcQuiet_ppc, hb]
    unfold AloneFollows
    dsimp only
    rw [halone]
    exact ⟨fun h0 h1 => absurd (h0.symm.trans h1) Bool.false_ne_true, fun h0 h1 => absurd (h1.symm.trans h0) Bool.false_ne_true⟩
  · exact h.alone_ppcSettle hlen hb hps

end

/-! ### The handover of a pack that leaves -/

theorem Slot.eq_or_other (x y : Slot) : y = x ∨ y = otherSlot x := by cases x <;> cases y <;> simp [otherSlot]

theorem Ppc.transferFrom_bridge (p : Ppc) (x : Slot) (k : Pack) :
    (p.transferFrom x k).bridge = p.closeBridge.bridge ∧ (p.transferFrom x k).settleTimer = some 20 := by
  simp only [Ppc.transferFrom, Ppc.endTransfer_bridge, Ppc.setPack_bridge, Ppc.endTransfer_settleTimer, settleMs, and_self]

/-- A pack that is ONLINE leaves by its transfer alone: selection then has nothing to do (R35, R40). -/
theorem Ppc.leave_online {p : Ppc} {x : Slot} {k : Pack} (ho : (p.pack x).state = .online) (hd : p.dcinOk = false)
    (h1 : k.state ≠ .standby) (h2 : k.state ≠ .online) : p.leave x k = p.transferFrom x k := by
  have hx := p.transferFrom_pack x k h1
  have hother := p.transferFrom_other x k h1
  have hdq : (p.transferFrom x k).dcinOk = false := by rw [(p.transferFrom_switched x k).dcinOk, hd]
  unfold Ppc.leave
  rw [if_pos ho]
  by_cases hon : ((p.transferFrom x k).pack (otherSlot x)).state = .online
  · exact Ppc.select_keeps _ (otherSlot x) hdq hon (by rwa [otherSlot_otherSlot, hx]) (by rwa [otherSlot_otherSlot, hx])
  · refine Ppc.select_idle _ hdq fun y => ?_
    rcases Slot.eq_or_other x y with rfl | rfl
    · rw [hx]; exact ⟨h2, h1⟩
    · refine ⟨hon, fun hs => ?_⟩
      rw [hother] at hs hon
      split at hs
      · cases hs
      · next hn => exact hn ⟨hd, hs⟩

/-- What the handover of an ONLINE pack leaves (R35). -/
theorem Ppc.leave_handover {p : Ppc} {x : Slot} {k : Pack} (ho : (p.pack x).state = .online) (hd : p.dcinOk = false)
    (h1 : k.state ≠ .standby) (h2 : k.state ≠ .online) :
    (p.bridge.fitted = true → (p.leave x k).bridge.switch = true) ∧ (p.leave x k).settleTimer = some 20
      ∧ ((p.pack (otherSlot x)).state = .standby →
          (p.leave x k).pack (otherSlot x) = { p.pack (otherSlot x) with state := .online, switch := true }) := by
  rw [Ppc.leave_online ho hd h1 h2]
  obtain ⟨hb, ht⟩ := p.transferFrom_bridge x k
  refine ⟨fun hf => ?_, ht, fun hs => by rw [Ppc.transferFrom_other _ _ _ h1, if_pos ⟨hd, hs⟩]⟩
  rw [hb]
  exact Ppc.closeBridge_closed (by rwa [p.closeBridge_switched.bridgeFitted])

end Sys2Proof.Machine
end

section
/-! The events of one slot that no sample brings: seating, loss, the timers of the record, and the timers of the bridge
(R26, R29, R32, R36, R41, R43, R44, R59). -/

namespace Sys2Proof.Machine

theorem State.idlePhase_iff (s : State) : s.idlePhase = true ↔ s.mtm.phase = .idle := by simp [State.idlePhase]

theorem State.idlePhase_false (s : State) : s.idlePhase = false ↔ s.mtm.phase ≠ .idle := by simp [State.idlePhase]

/-! ### The commands, where their event takes place -/

section
variable {s : State} {x : Slot}

theorem exec_seating (h : (s.ppc.pack x).presence = false) :
    exec (.seating x) s = .next (s.ppcEnd (s.ppc.seat x) [.packSeated x]) :=
  congrArg Host.Outcome.next (if_neg (by simp [h]))

theorem exec_qualTimeout (hs : (s.ppc.pack x).state = .qualifying) (ht : (s.ppc.pack x).qualTimer.isSome = true) :
    exec (.qualTimeoutExpiry x) s = .next (s.ppcEnd (s.ppc.enterFault x .qualifyTimeout s.idlePhase) [.packFault x]) :=
  congrArg Host.Outcome.next (if_pos (by simp [hs, ht]))

theorem exec_gaugeStale (ht : (s.ppc.pack x).staleTimer.isSome = true) : exec (.gaugeStaleExpiry x) s = .next
    (if (s.ppc.pack x).state = .online then s.ppcSettle (s.ppc.gaugeStale x) [] else s.ppcQuiet (s.ppc.gaugeStale x) []) :=
  congrArg Host.Outcome.next (if_neg fun h => by simp [Option.isNone_iff_eq_none.1 h] at ht)

theorem exec_releaseConfirm (hs : (s.ppc.pack x).state = .releasing) (ht : (s.ppc.pack x).confirmTimer.isSome = true) :
    exec (.releaseConfirmExpiry x) s = .next (s.ppcEnd (s.ppc.confirm x s.idlePhase).1 (s.ppc.confirm x s.idlePhase).2) :=
  congrArg Host.Outcome.next (if_pos (by simp [hs, ht]))

theorem exec_unlockHold (hs : (s.ppc.pack x).state = .unlocked) (ht : (s.ppc.pack x).holdTimer.isSome = true) :
    exec (.unlockHoldExpiry x) s = .next (s.ppcEnd (s.ppc.relock x) []) :=
  congrArg Host.Outcome.next (if_pos (by simp [hs, ht]))

theorem exec_transferSettle (ht : s.ppc.settleTimer.isSome = true) :
    exec .transferSettleExpiry s = .next (s.ppcEnd s.ppc.settleExpiry []) :=
  congrArg Host.Outcome.next (if_pos ht)

theorem exec_swapWindow {ms : Nat} (hw : s.ppc.bridge.window = .running ms) :
    exec .swapWindowExpiry s = .next (s.ppcSettle s.ppc.exhaust [.bridgeExhausted]) := by
  simp only [exec, execSwapWindowExpiry, hw]

end

/-- An occurrence among the pulses of an event of PPC. -/
theorem State.occurred_ppcEnd (s : State) (hlen : s.ntu.table.length = 32) {p : Ppc} {ps : List Event} {e : Event} (he : e ∈ ps) :
    Occurred s (s.ppcEnd p ps) e := Told.occurred_ppcEnd (.refl s) hlen he

/-! ### Seating -/

theorem Ppc.seat_pack (p : Ppc) (x : Slot) : (p.seat x).pack x = { p.pack x with
    state := .seated, presence := true, lock := true, sample := none, age := none, stale := false, qual := 0
    allowance := 0, faultCause := none, lastRefusal := none, staleTimer := some p.profile.gaugeStale
    presPin := { raw := true, timer := none } } := p.setPack_select_own x nofun nofun

/-- Settles O27: seating sets the one record, selection cannot touch it, and the event ends with its settlement (R26). -/
theorem seatingStartsAPack : Obligations.SeatingStartsAPack := by
  unfold Obligations.SeatingStartsAPack
  intro x s hp hlen
  refine ⟨_, exec_seating hp, ?_, s.occurred_ppcEnd hlen (List.mem_singleton_self _), ?_⟩
  · exact s.ppcEnd_slot (s.ppc.seat_switched x) (s.ppc.setPack_select_other x _) (by simp) (by simp)
  · rw [State.ppcEnd_ppc_pack]
    exact s.ppc.seat_pack x

/-! ### The four timers of a pack record -/

theorem Ppc.enterFault_pack (p : Ppc) (x : Slot) (c : FaultCause) (idle : Bool) :
    (p.enterFault x c idle).pack x = (p.pack x).faulted c idle :=
  p.leave_pack x ((p.pack x).faulted c idle) (by simp) (by simp)

theorem Ppc.enterFault_other (p : Ppc) (x : Slot) (c : FaultCause) (idle : Bool) :
    (p.pack (otherSlot x)).onlySelected ((p.enterFault x c idle).pack (otherSlot x)) :=
  p.leave_other x ((p.pack x).faulted c idle) (by simp) (by simp)

/-- The record of a RELEASING pack whose release is confirmed in IDLE (R41). -/
def Pack.confirmed (k : Pack) (f : PackProfile) : Pack :=
  { k with confirmTimer := none, staleTimer := none, lock := false, state := .unlocked, holdTimer := some f.unlockHold }

theorem Ppc.confirm_idle (p : Ppc) (x : Slot) :
    p.confirm x true = ((p.setPack x ((p.pack x).confirmed p.profile)).select, [.swapReady]) := rfl

theorem Ppc.confirm_moving (p : Ppc) (x : Slot) :
    p.confirm x false = (p.setPack x { p.pack x with confirmTimer := none, lockPending := true }, []) := rfl

theorem Ppc.confirm_other (p : Ppc) (x : Slot) (idle : Bool) :
    (p.pack (otherSlot x)).onlySelected ((p.confirm x idle).1.pack (otherSlot x)) := by
  cases idle
  · exact p.setPack_other x _
  · exact p.setPack_select_other x _

theorem Ppc.confirm_pack (p : Ppc) (x : Slot) (idle : Bool) : (p.confirm x idle).1.pack x =
    if idle then (p.pack x).confirmed p.profile else { p.pack x with confirmTimer := none, lockPending := true } := by
  cases idle
  · exact Ppc.pack_setPack _ _ _
  · exact p.setPack_select_own x nofun nofun

theorem Ppc.confirm_pulses (p : Ppc) (x : Slot) (idle : Bool) : (p.confirm x idle).2 = if idle then [.swapReady] else [] := by
  cases idle <;> rfl

theorem Ppc.gaugeStale_pack (p : Ppc) (x : Slot) : (p.gaugeStale x).pack x = { p.pack x with
    staleTimer := none, stale := true
    allowance := if (p.pack x).sample.isSome then p.profile.staleAllow else (p.pack x).allowance } := by
  unfold Ppc.gaugeStale
  rw [Ppc.pack_setPack]
  unfold Pack.reallow
  cases h : (p.pack x).sample <;> simp [h]

/-- Settles O32: each expiry sets the one record; what the other slot and LMC may see is the frame of a slot's event. -/
theorem packTimersExpire : Obligations.PackTimersExpire := by
  unfold Obligations.PackTimersExpire
  intro x s hlen
  refine ⟨fun hs ht => ?_, fun ht => ?_, fun hs ht => ?_, fun hs ht => ?_⟩
  · refine ⟨_, exec_qualTimeout hs ht, ?_, s.occurred_ppcEnd hlen (List.mem_singleton_self _), ?_⟩
    · exact s.ppcEnd_slot (s.ppc.enterFault_switched x _ _) (s.ppc.enterFault_other x _ _) (by simp) (by simp)
    · rw [State.ppcEnd_ppc_pack, Ppc.enterFault_pack]
      by_cases hi : s.mtm.phase = .idle <;> simp [Pack.faulted, Pack.releaseLock, State.idlePhase, hi]
  · refine ⟨_, exec_gaugeStale ht, ?_⟩
    have hfollow : ∀ t : State, ConditionFollows s t (.gaugeStale x) true →
        (s.ntu.isLive (.gaugeStale x) = false → Occurred s t (.gaugeStale x)) ∧ t.ntu.isLive (.gaugeStale x) = true := fun t h =>
      ⟨fun h0 => (h hlen).2.1 h0 rfl, (h hlen).1⟩
    have hdeliver : ∀ q : Ppc, q.pack x = (s.ppc.gaugeStale x).pack x → Delivers q.conditions (.gaugeStale x) true := fun q hq => by
      have h := q.delivers_gaugeStale x
      rwa [hq, Ppc.gaugeStale_pack] at h
    have hmem : Event.gaugeStale x ∈ powerConditions := by cases x <;> decide
    split
    · obtain ⟨hocc, hlive⟩ := hfollow _ ((Reached.refl s).follows_ppcSettle (ps := []) hmem (by simp) (hdeliver _ (s.ppcSettle_pack _ [] x)))
      exact ⟨s.ppcSettle_slot (s.ppc.gaugeStale_switched x) (s.ppc.setPack_other x _) (by simp) (by simp),
        (s.ppcSettle_pack _ _ x).trans (s.ppc.gaugeStale_pack x), hocc, hlive, fun _ => s.ppcSettle_settled _ _⟩
    · next hon =>
      obtain ⟨hocc, hlive⟩ := hfollow _ ((Reached.refl s).follows_ppcQuiet (ps := []) hmem (by simp) (hdeliver _ rfl))
      exact ⟨s.ppcQuiet_slot (s.ppc.gaugeStale_switched x) (s.ppc.setPack_other x _) (by simp) (by simp),
        (congrArg (fun q => q.pack x) (s.ppcQuiet_ppc _ _)).trans (s.ppc.gaugeStale_pack x), hocc, hlive, fun h => absurd h hon⟩
  · refine ⟨_, exec_releaseConfirm hs ht, ?_, fun hi => ⟨s.occurred_ppcEnd hlen ?_, ?_⟩, fun hi => ?_⟩
    · have hps : ∀ e ∈ (s.ppc.confirm x s.idlePhase).2, e = .swapReady := fun e he => by
        rw [Ppc.confirm_pulses] at he
        split at he
        · exact List.mem_singleton.1 he
        · cases he
      exact (s.ppcEnd_slot (s.ppc.confirm_switched x _) (s.ppc.confirm_other x _) (fun h => nomatch hps _ h)
        (fun h => nomatch hps _ h)).mono fun e he => List.mem_singleton.2 (hps e he)
    · rw [Ppc.confirm_pulses, if_pos (s.idlePhase_iff.2 hi)]; exact List.mem_singleton_self _
    · rw [State.ppcEnd_ppc_pack, Ppc.confirm_pack, if_pos (s.idlePhase_iff.2 hi)]; rfl
    · rw [State.ppcEnd_ppc_pack, Ppc.confirm_pack, if_neg (by rw [s.idlePhase_iff]; exact hi)]
  · refine ⟨_, exec_unlockHold hs ht, s.ppcEnd_slot (s.ppc.relock_switched x) (s.ppc.setPack_select_other x _) (by simp) (by simp), ?_⟩
    rw [State.ppcEnd_ppc_pack]
    exact s.ppc.setPack_select_own x nofun nofun

/-! ### The timers of the bridge -/

theorem Ppc.settleExpiry_only (p : Ppc) : p.settleExpiry = { p with
    settleTimer := none
    bridge := { p.bridge with switch := p.bridge.switch && (p.brace || !(p.swDc || p.packA.switch || p.packB.switch)) } } := by
  unfold Ppc.settleExpiry
  rcases Ppc.openBridgeIfFree_cases { p with settleTimer := none } with ⟨hn, h⟩ | ⟨hn, h⟩ <;> rw [h] <;>
    simp only [Ppc.bridgeNeeded, Ppc.mainClosed] at hn <;> simp only [hn, Ppc.openBridge, Bool.and_true, Bool.and_false]

/-- A delivered ceiling holds the target (R96). -/
theorem CeilingDelivered.target_le {s t : State} (h : CeilingDelivered s.lmc s t) (hu : s.underCeiling) :
    t.lmc.target ≤ t.ppc.budget.cPower := by
  obtain ⟨_, hsame, hnew⟩ := h
  by_cases hc : t.ppc.budget.cPower = s.ppc.budget.delivered
  · obtain ⟨_, hcp, _, htarget, _⟩ := hu
    rw [(hsame hc).1, hc, ← hcp]
    exact htarget
  · obtain ⟨hout, hre, _⟩ := hnew hc
    obtain ⟨honly, htarget, _⟩ := hre
    rw [htarget]
    split <;> simp

/-- Settles O33: the settle timer opens an unneeded SW_BR; a window that runs out leaves the bridge exhausted, which keeps
selection where it was and makes the settlement's C_power 0 (R57, R59). -/
theorem bridgeTimersExpire : Obligations.BridgeTimersExpire := by
  unfold Obligations.BridgeTimersExpire
  refine ⟨fun s ht => ?_, fun s ms hw hsafe hceil hlen => ?_⟩
  · have hsw := s.ppc.settleExpiry_switched
    have honly := s.ppc.settleExpiry_only
    refine ⟨_, exec_transferSettle ht, s.ppcEnd_only _ _, ?_, fun hs => ?_, ?_, ?_, ?_, ?_, ?_⟩
    · rw [State.ppcEnd_ppc_settleTimer, honly]
    · exact (LightQuiet.refl s).delivered_ppcEnd hsw.budget hs (by simp) (by simp)
    · rw [State.ppcEnd_ppc_switch, honly]
    · rw [State.ppcEnd_ppc_packA, honly]
    · rw [State.ppcEnd_ppc_packB, honly]
    · rw [State.ppcEnd_ppc_swDc, honly]
    · exact Ppc.onlySelection_trans hsw.only (s.ppcEnd_onlySelection _ _)
  · obtain ⟨halone, _⟩ := hsafe.steady.ordered.window (by rw [hw]; exact nofun)
    obtain ⟨_, _, hd, hidle⟩ := hsafe.alone halone
    have hex : s.ppc.exhaust = { s.ppc with bridge := { s.ppc.bridge with window := .none, exhausted := true } } :=
      Ppc.select_idle _ hd fun y => (hidle y).2
    have hppc : (s.ppcSettle s.ppc.exhaust [.bridgeExhausted]).ppc.bridge = { s.ppc.bridge with window := .none, exhausted := true } := by
      have hc : s.ppc.exhaust.carriesAlone = true := by rw [hex, ← halone, hsafe.inStep]; rfl
      rw [State.ppcSettle_ppc, (Ppc.settle_exhausted s.ppc s.ppc.exhaust s.lmc.out (by rw [hex]; exact halone) hc (by rw [hex])).1, hex]
    have hdel : CeilingDelivered s.lmc s (s.ppcSettle s.ppc.exhaust [.bridgeExhausted]) :=
      (LightQuiet.refl s).delivered_ppcSettle (by rw [hex]) (by simp) (by simp)
    have hzero : (s.ppcSettle s.ppc.exhaust [.bridgeExhausted]).ppc.budget.cPower = 0 := by
      rw [(s.ppcSettle_settled _ _).2.2, hppc, if_pos rfl]
    obtain ⟨hcp, hout, hcut⟩ := hdel.cut hceil
    rw [hzero] at hcp hout hcut
    have htarget : (s.ppcSettle s.ppc.exhaust [.bridgeExhausted]).lmc.target = 0 :=
      Nat.le_zero.1 (hdel.target_le hceil |>.trans hzero.le)
    refine ⟨_, exec_swapWindow hw, s.ppcSettle_only _ _, hdel, hppc, (Reached.refl s).occurred_ppcSettle hlen _ (List.mem_singleton_self _),
      hzero, hcp, htarget, by rw [hout, Nat.min_zero], hcut hlen, ?_, ?_, ?_⟩ <;> rw [State.ppcSettle_ppc] <;>
      simp [hex]

end Sys2Proof.Machine
end

section
/-! A pack is lost or removed (R44), and a pack is released (R37 to R40). -/

namespace Sys2Proof.Machine

/-! ### Presence loss -/

/-- The record of a slot that lost its pack (R44). -/
def Pack.gone (k : Pack) (idle : Bool) : Pack :=
  { k with
    state := .empty, presence := false, switch := false, lockPending := false
    lossCause := if k.state.removable then k.lossCause else some (if idle then .pulled else .dislodged)
    qualTimer := none, confirmTimer := none, holdTimer := none, staleTimer := none
    presPin := { raw := false, timer := none } }

/-- The records as selection finds them after a loss (R44). -/
def Ppc.lost (p : Ppc) (x : Slot) (idle : Bool) : Ppc :=
  (if (p.pack x).switch then p.closeBridge else p).setPack x ((p.pack x).gone idle)

theorem Ppc.lose_eq (p : Ppc) (x : Slot) (idle : Bool) : p.lose x idle = (p.lost x idle).select := rfl

theorem Ppc.lost_other (p : Ppc) (x : Slot) (idle : Bool) : (p.lost x idle).pack (otherSlot x) = p.pack (otherSlot x) := by
  unfold Ppc.lost
  rw [Ppc.pack_setPack_other]
  split
  · exact p.closeBridge_pack _
  · rfl

theorem Ppc.lost_pack (p : Ppc) (x : Slot) (idle : Bool) : (p.lost x idle).pack x = (p.pack x).gone idle := Ppc.pack_setPack _ _ _

theorem Ppc.lose_pack (p : Ppc) (x : Slot) (idle : Bool) : (p.lose x idle).pack x = (p.pack x).gone idle :=
  Ppc.setPack_select_own _ x nofun nofun

theorem Ppc.lose_other (p : Ppc) (x : Slot) (idle : Bool) :
    (p.pack (otherSlot x)).onlySelected ((p.lose x idle).pack (otherSlot x)) := by
  have h := (p.lost x idle).select_pack (otherSlot x)
  rwa [Ppc.lost_other] at h

theorem Ppc.onlineSlot_eq_none {p : Ppc} (h : ∀ x, (p.pack x).state ≠ .online) : p.onlineSlot = none := by
  cases ho : p.onlineSlot with
  | none => rfl
  | some x => exact absurd (p.onlineSlot_some x ho) (h x)

/-- With nothing closed, selection closes the pack it chooses (R33 step 3). -/
theorem Ppc.select_chosen {p : Ppc} (hd : p.dcinOk = false) (h : ∀ x, (p.pack x).state ≠ .online) {y : Slot}
    (hy : p.choose = some y) : p.select = p.closeBridge.endTransfer (some y) := by
  unfold Ppc.select
  simp [hd, Ppc.onlineSlot_eq_none h, hy]

/-- The only STANDBY pack is chosen. -/
theorem Ppc.choose_only {p : Ppc} (hd : p.dcinOk = false) {y : Slot} (hy : (p.pack y).state = .standby)
    (ho : (p.pack (otherSlot y)).state ≠ .standby) : p.choose = some y := by
  cases hc : p.choose with
  | none => exact absurd hy (p.choose_none hc hd y)
  | some z =>
    rcases Slot.eq_or_other y z with rfl | rfl
    · rfl
    · exact absurd (p.choose_some _ hc).2.1 ho

/-- A pack that carried the load is lost: the bridge closes, and a STANDBY pack takes over (R35, R44). -/
theorem Ppc.lose_handover {p : Ppc} (h : p.safe) {x : Slot} (hs : (p.pack x).switch = true) (idle : Bool) :
    (p.bridge.fitted = true → (p.lose x idle).bridge.switch = true)
      ∧ ((p.pack (otherSlot x)).state = .standby →
          ((p.lose x idle).pack (otherSlot x)).state = .online ∧ (p.lose x idle).settleTimer = some 20) := by
  have ho := h.steady.ordered
  obtain ⟨hd, _, _, hno⟩ := ho.online ((ho.state_of_closed x).1 hs)
  have hsw : p.Switched (p.lost x idle) := by
    unfold Ppc.lost
    rw [if_pos hs]
    exact p.closeBridge_switched.trans (Ppc.setPack_switched _ x _)
  have hd' : (p.lost x idle).dcinOk = false := by rw [hsw.dcinOk, hd]
  have hclosed : p.bridge.fitted = true → (p.lost x idle).bridge.switch = true := fun hf => by
    unfold Ppc.lost
    rw [if_pos hs, Ppc.setPack_bridge]
    exact Ppc.closeBridge_closed (by rwa [p.closeBridge_switched.bridgeFitted])
  have hnone : ∀ y, ((p.lost x idle).pack y).state ≠ .online := fun y => by
    rcases Slot.eq_or_other x y with rfl | rfl
    · rw [Ppc.lost_pack]; exact nofun
    · rw [Ppc.lost_other]; exact hno
  rw [Ppc.lose_eq]
  by_cases hst : (p.pack (otherSlot x)).state = .standby
  · have hsel := Ppc.select_chosen hd' hnone (Ppc.choose_only hd' (y := otherSlot x) (by rwa [Ppc.lost_other])
      (by rw [otherSlot_otherSlot, Ppc.lost_pack]; exact nofun))
    rw [hsel, Ppc.endTransfer_bridge, Ppc.endTransfer_some_pack, Ppc.endTransfer_settleTimer]
    exact ⟨fun hf => Ppc.closeBridge_closed (by rwa [(Ppc.closeBridge_switched _).bridgeFitted, hsw.bridgeFitted]), fun _ => ⟨rfl, rfl⟩⟩
  · rw [Ppc.select_idle _ hd' fun y => ⟨hnone y, fun hy => ?_⟩]
    · exact ⟨hclosed, fun h' => absurd h' hst⟩
    · rcases Slot.eq_or_other x y with rfl | rfl
      · rw [Ppc.lost_pack] at hy; cases hy
      · rw [Ppc.lost_other] at hy; exact hst hy

theorem Ppc.switches_ne {p q : Ppc} {x : Slot} (h : (q.pack x).switch ≠ (p.pack x).switch) : q.switches ≠ p.switches := fun he => by
  simp only [Ppc.switches, Prod.mk.injEq] at he
  obtain ⟨_, ha, hb, _⟩ := he
  cases x
  · exact h ha
  · exact h hb

/-- An event of PPC that moves a switch ends settled (R56). -/
theorem State.ppcEnd_settled (s : State) {p : Ppc} (h : p.switches ≠ s.ppc.switches) (ps : List Event) :
    (s.ppcEnd p ps).ppc.settled := by
  unfold State.ppcEnd
  rw [if_neg h]
  exact s.ppcSettle_settled p ps

/-- The state after a presence loss, before its report to MTM. -/
def State.afterLoss (s : State) (x : Slot) : State :=
  s.ppcEnd (s.ppc.lose x s.idlePhase) [if (s.ppc.pack x).state.removable then .packRemoved x else .packLost x]

theorem PackState.removable_iff (k : PackState) : k.removable = true ↔ k = .unlocked ∨ k = .fault := by cases k <;> simp [PackState.removable]

theorem State.setMtm_self {s : State} {m : Mtm} (h : s.mtm = m) : s.setMtm m = s := by subst h; rfl

/-- The state after a presence loss and its report (R44, R129). -/
def State.afterReport (s : State) (x : Slot) : State :=
  if !(s.ppc.pack x).state.removable && !s.idlePhase then (s.afterLoss x).reportDislodged x else s.afterLoss x

theorem exec_presenceLoss {s : State} {x : Slot} (h : (s.ppc.pack x).presence = true) :
    exec (.presenceLoss x) s = .next (s.afterReport x) :=
  congrArg Host.Outcome.next (if_neg (by simp [h]))

theorem State.afterReport_settled (s : State) (x : Slot) : Settled (s.afterLoss x) (s.afterReport x) := by
  unfold State.afterReport
  split
  · exact .reportDislodged _ x
  · exact .refl _

theorem State.afterLoss_mtm (s : State) (x : Slot) : (s.afterLoss x).mtm = s.mtm := s.ppcEnd_mtm _ _

theorem State.afterReport_frame (s : State) (x : Slot) : (s.afterReport x).setMtm s.mtm = s.afterLoss x := by
  have h : (s.afterLoss x).setMtm s.mtm = s.afterLoss x := State.setMtm_self (s.afterLoss_mtm x)
  unfold State.afterReport
  split
  · exact h
  · exact h

theorem State.afterReport_mtm (s : State) (x : Slot) : (s.afterReport x).mtm =
    if !(s.ppc.pack x).state.removable && !s.idlePhase then s.mtm.onOpen (fun r => r.dislodge x) else s.mtm := by
  unfold State.afterReport
  split
  · rw [← s.afterLoss_mtm x]; rfl
  · exact s.afterLoss_mtm x

theorem State.afterLoss_slot (s : State) (x : Slot) : OnlySlot s (s.afterLoss x) x [.packLost x, .packRemoved x] := by
  refine OnlySlot.mono (s.ppcEnd_slot (s.ppc.lose_switched x _) (s.ppc.lose_other x _) ?_ ?_) ?_ <;> split <;> simp

/-- Settles O28: the record is emptied, the state decides removal or loss, and MTM hears of a DISLODGED one alone (R44, R129). -/
theorem presenceLossEmptiesASlot : Obligations.PresenceLossEmptiesASlot := by
  unfold Obligations.PresenceLossEmptiesASlot
  intro x s hp hlen
  have hset := s.afterReport_settled x
  have htold : Told s (s.afterLoss x) := .ppcEnd s _ _
  have hpack : ∀ y, (s.afterReport x).ppc.pack y = (s.ppc.lose x s.idlePhase).pack y := fun y => by
    rw [hset.ppc]; exact s.ppcEnd_ppc_pack _ _ y
  have hocc : ∀ {e}, e = (if (s.ppc.pack x).state.removable then Event.packRemoved x else .packLost x) → Occurred s (s.afterReport x) e :=
    fun he => hset.occurred htold (s.occurred_ppcEnd hlen (List.mem_singleton.2 he))
  have hmtm := s.afterReport_mtm x
  have halone := hset.aloneFollows htold ((Reached.refl s).alone_ppcEnd hlen (s.ppc.lose_switched x s.idlePhase).bridge
    (ps := [if (s.ppc.pack x).state.removable then Event.packRemoved x else .packLost x]) (by split <;> simp))
  refine ⟨_, exec_presenceLoss hp, ?_⟩
  dsimp only
  simp only [← PackState.removable_iff, s.afterReport_frame x]
  refine ⟨s.afterLoss_slot x, ⟨_, (hpack x).trans (s.ppc.lose_pack x _), ?_, ?_, ?_⟩, fun ho => hocc (if_pos ho).symm,
    fun ho => hocc (if_neg ho).symm, fun ho => ?_, fun ho hm => ?_, fun hsafe hs => ?_, halone⟩
  · exact fun ho => if_pos ho
  · exact fun ho hm => by rw [if_neg ho, if_pos (s.idlePhase_iff.2 hm)]
  · exact fun ho hm => by rw [if_neg ho, s.idlePhase_false.2 hm]; rfl
  · rw [hmtm, if_neg]
    rcases ho with ho | ho
    · simp [ho]
    · simp [s.idlePhase_iff.2 ho]
  · rw [hmtm, if_pos (by simp [ho, s.idlePhase_false.2 hm])]
    cases x <;> rfl
  · obtain ⟨hb, hother⟩ := Ppc.lose_handover hsafe hs s.idlePhase
    have hmoved : (s.ppc.lose x s.idlePhase).switches ≠ s.ppc.switches :=
      Ppc.switches_ne (x := x) (by rw [Ppc.lose_pack, hs]; exact nofun)
    refine ⟨fun hf => ?_, fun hst => ⟨?_, ?_⟩, by rw [hset.ppc]; exact s.ppcEnd_settled hmoved _⟩
    · rw [hset.ppc]; exact (s.ppcEnd_ppc_switch _ _).trans (hb hf)
    · rw [hpack]; exact (hother hst).1
    · rw [hset.ppc]; exact (s.ppcEnd_ppc_settleTimer _ _).trans (hother hst).2

end Sys2Proof.Machine
end

section
/-! The release of a pack by its lever and by PACK_RELEASE (R37 to R40, R158). -/

namespace Sys2Proof.Machine

/-! ### The successor (R38) -/

theorem Bridge.usable_of_out {p : Ppc} (h : p.bridgeOut) : p.bridge.usable = false := by
  unfold Bridge.usable
  rcases h with h | ⟨g, hg, hf⟩
  · simp [h]
  · simp [hg, hf]

theorem Ppc.ready_tests {p : Ppc} (h : p.bridgeReady) : p.bridge.usable = true ∧ p.chargeTest = true := by
  obtain ⟨hf, g, hg, hfault, hc⟩ := h
  refine ⟨by simp [Bridge.usable, hf, hg, hfault], ?_⟩
  simp only [Ppc.chargeTest, hg, Option.any_some, decide_eq_true_eq]
  omega

theorem Ppc.short_tests {p : Ppc} (h : p.bridgeShort) : p.bridge.usable = true ∧ p.chargeTest = false := by
  obtain ⟨hf, hn | ⟨g, hg, hfault, hc⟩⟩ := h
  · simp [Bridge.usable, Ppc.chargeTest, hf, hn]
  · refine ⟨by simp [Bridge.usable, hf, hg, hfault], ?_⟩
    simp only [Ppc.chargeTest, hg, Option.any_some, decide_eq_false_iff_not]
    omega

section
variable {p : Ppc} {x : Slot} {r : Regime}

theorem Ppc.noSuccessor_none (h : (p.pack (otherSlot x)).state = .standby ∨ p.bridgeReady ∧ r = .attended) :
    p.noSuccessor x r = none := by
  rcases h with h | ⟨h, rfl⟩
  · simp [Ppc.noSuccessor, h]
  · obtain ⟨hu, hc⟩ := Ppc.ready_tests h
    simp [Ppc.noSuccessor, hu, hc]

variable (hs : (p.pack (otherSlot x)).state ≠ .standby)
include hs

theorem Ppc.noSuccessor_out (h : p.bridgeOut) : p.noSuccessor x r = some .noSuccessor := by
  simp [Ppc.noSuccessor, hs, Bridge.usable_of_out h]

theorem Ppc.noSuccessor_short (h : p.bridgeShort) : p.noSuccessor x r = some .bridgeLow := by
  obtain ⟨hu, hc⟩ := Ppc.short_tests h
  simp [Ppc.noSuccessor, hs, hu, hc]

theorem Ppc.noSuccessor_unattended (h : p.bridgeReady) : p.noSuccessor x .unattended = some .unattended := by
  obtain ⟨hu, hc⟩ := Ppc.ready_tests h
  simp [Ppc.noSuccessor, hs, hu, hc]

end

/-! ### The judgement of a release -/

theorem Ppc.enterReleasing_pack (p : Ppc) (x : Slot) : (p.enterReleasing x).pack x = (p.pack x).leaving p.profile :=
  p.leave_pack x _ nofun nofun

theorem Ppc.refuseRelease_pack (p : Ppc) (x : Slot) (r : Reason) :
    (p.refuseRelease x r).ppc.pack x = { p.pack x with lastRefusal := some r } := Ppc.pack_setPack _ _ _

/-- The judgement of R38 and what it leaves of the record, for every state, phase and successor (R37 to R40). -/
theorem State.release_released {s t : State} {x : Slot} {r : Regime}
    (hpack : t.ppc.pack x = (s.ppc.release x s.idlePhase r).ppc.pack x)
    (hign : (s.ppc.release x s.idlePhase r).result = .ignored → t.ppc = s.ppc) :
    Released s t x r (s.ppc.release x s.idlePhase r).result := by
  have hrefused : ∀ why, s.ppc.release x s.idlePhase r = s.ppc.refuseRelease x why →
      (s.ppc.release x s.idlePhase r).result = .refused why
        ∧ t.ppc.pack x = { s.ppc.pack x with lastRefusal := some why } := fun why hr => by
    rw [hpack, hr]
    exact ⟨rfl, Ppc.refuseRelease_pack _ _ _⟩
  have hleaves : s.ppc.release x s.idlePhase r = { ppc := s.ppc.enterReleasing x, result := .done, pulses := [] } →
      (s.ppc.release x s.idlePhase r).result = .done ∧ t.ppc.pack x = (s.ppc.pack x).leaving s.ppc.profile := fun hr => by
    rw [hpack, hr]
    exact ⟨rfl, Ppc.enterReleasing_pack _ _⟩
  have hidle : s.mtm.phase = .idle → s.ppc.release x s.idlePhase r = s.ppc.release x true r := fun hm => by
    rw [s.idlePhase_iff.2 hm]
  refine ⟨fun h => ?_, fun h hm => ?_, fun h hm => ?_, fun h hm => ?_, fun h hm => ⟨fun hsucc => ?_, fun hs hb => ?_, fun hs hb => ?_,
    fun hs hb hr => ?_⟩⟩
  · have hr := congrArg Release.result (Ppc.release_ignored r s.idlePhase h)
    exact ⟨hr, hign hr⟩
  · exact hrefused _ (by rw [s.idlePhase_false.2 hm]; exact Ppc.release_motion r h)
  · have hr := (hidle hm).trans (Ppc.release_letGo r (by simpa using h))
    rw [hpack, hr]
    exact ⟨rfl, Ppc.setPack_select_own _ _ nofun nofun⟩
  · exact hleaves ((hidle hm).trans (Ppc.release_leaves r (.inl h)))
  · exact hleaves ((hidle hm).trans (Ppc.release_leaves r (.inr ⟨h, Ppc.noSuccessor_none hsucc⟩)))
  · exact hrefused _ ((hidle hm).trans (Ppc.release_refused r h (Ppc.noSuccessor_out hs hb)))
  · exact hrefused _ ((hidle hm).trans (Ppc.release_refused r h (Ppc.noSuccessor_short hs hb)))
  · subst hr
    exact hrefused _ ((hidle hm).trans (Ppc.release_refused _ h (Ppc.noSuccessor_unattended hs hb)))

theorem Ppc.release_other (p : Ppc) (x : Slot) (idle : Bool) (r : Regime) :
    (p.pack (otherSlot x)).onlySelected ((p.release x idle r).ppc.pack (otherSlot x)) := by
  rcases p.release_cases x idle r with ⟨_, hr⟩ | ⟨_, why, hr⟩ | ⟨_, hr⟩ | ⟨_, hr⟩ <;> rw [hr]
  · exact Pack.onlySelected_refl _
  · exact p.setPack_other x _
  · exact p.setPack_select_other x _
  · exact p.leave_other x _ nofun nofun

theorem Ppc.release_pulses (p : Ppc) (x : Slot) (idle : Bool) (r : Regime) :
    ∀ e ∈ (p.release x idle r).pulses, e ∈ [Event.swapRefused, .swapReady] := by
  rcases p.release_cases x idle r with ⟨_, hr⟩ | ⟨_, why, hr⟩ | ⟨_, hr⟩ | ⟨_, hr⟩ <;> rw [hr]
  · exact nofun
  · exact fun e he => List.mem_cons.2 (.inl (List.mem_singleton.1 he))
  · exact fun e he => List.mem_cons_of_mem _ he
  · exact nofun

theorem Ppc.release_refuses {p : Ppc} {x : Slot} {idle : Bool} {r : Regime} {why : Reason}
    (h : (p.release x idle r).result = .refused why) : Event.swapRefused ∈ (p.release x idle r).pulses := by
  rcases p.release_cases x idle r with ⟨_, hr⟩ | ⟨_, why, hr⟩ | ⟨_, hr⟩ | ⟨_, hr⟩ <;> rw [hr] at h ⊢
  · cases h
  · exact List.mem_singleton_self _
  · cases h
  · cases h

theorem Ppc.release_unlocks {p : Ppc} {x : Slot} {idle : Bool} {r : Regime} (h : (p.release x idle r).result = .done)
    (hu : ((p.release x idle r).ppc.pack x).state = .unlocked) : Event.swapReady ∈ (p.release x idle r).pulses := by
  rcases p.release_cases x idle r with ⟨_, hr⟩ | ⟨_, why, hr⟩ | ⟨_, hr⟩ | ⟨_, hr⟩ <;> rw [hr] at h hu ⊢
  · cases h
  · cases h
  · exact List.mem_singleton_self _
  · rw [Ppc.enterReleasing_pack] at hu; cases hu

theorem Ppc.release_ignored_ppc {p : Ppc} {x : Slot} {idle : Bool} {r : Regime} (h : (p.release x idle r).result = .ignored) :
    (p.release x idle r).ppc = p := by
  rcases p.release_cases x idle r with ⟨_, hr⟩ | ⟨_, why, hr⟩ | ⟨_, hr⟩ | ⟨_, hr⟩ <;> rw [hr] at h ⊢ <;> cases h

/-- The handover of a release (R35, R40). -/
theorem Ppc.release_handover {p : Ppc} {x : Slot} {idle : Bool} {r : Regime} (h : (p.release x idle r).result = .done)
    (ho : (p.pack x).state = .online) (hd : p.dcinOk = false) :
    (p.bridge.fitted = true → (p.release x idle r).ppc.bridge.switch = true) ∧ (p.release x idle r).ppc.settleTimer = some 20
      ∧ ((p.pack (otherSlot x)).state = .standby →
          (p.release x idle r).ppc.pack (otherSlot x) = { p.pack (otherSlot x) with state := .online, switch := true }) := by
  rcases p.release_cases x idle r with ⟨_, hr⟩ | ⟨_, why, hr⟩ | ⟨hs, _⟩ | ⟨_, hr⟩
  · rw [hr] at h; cases h
  · rw [hr] at h; cases h
  · rw [ho] at hs; rcases hs with hs | hs <;> cases hs
  · rw [hr]
    exact Ppc.leave_handover ho hd nofun nofun

/-! ### The end of a release -/

section
variable (s : State) {p : Ppc} (x : Slot) (r : Regime) (hp : s.ppc.Switched p)
  (ho : p.pack (otherSlot x) = s.ppc.pack (otherSlot x))
include hp ho

/-- The event of a release on the records `p`, which slot `x` may have begun to change. -/
theorem State.ppcEnd_release_slot :
    OnlySlot s (s.ppcEnd (p.release x s.idlePhase r).ppc (p.release x s.idlePhase r).pulses) x [.swapRefused, .swapReady] := by
  have hps := p.release_pulses x s.idlePhase r
  refine (s.ppcEnd_slot (hp.trans (p.release_switched x _ r)) ?_ (fun h => by simpa using hps _ h) fun h => by simpa using hps _ h).mono hps
  rw [← ho]
  exact p.release_other x _ r

omit ho in
theorem State.ppcEnd_release_alone (hlen : s.ntu.table.length = 32) :
    AloneFollows s (s.ppcEnd (p.release x s.idlePhase r).ppc (p.release x s.idlePhase r).pulses) :=
  (Reached.refl s).alone_ppcEnd hlen (hp.trans (p.release_switched x _ r)).bridge fun h => by
    simpa using p.release_pulses x s.idlePhase r _ h

end

/-! ### The lever -/

/-- The records with a pressed lever (R24). -/
def Ppc.pressed (p : Ppc) (x : Slot) : Ppc := p.setPack x ((p.pack x).withLever true)

theorem Ppc.pressed_switches (p : Ppc) (x : Slot) : (p.pressed x).switches = p.switches := by cases x <;> rfl

theorem exec_leverPress {s : State} {x : Slot} (h : (s.ppc.pack x).lever = false) : exec (.leverPress x) s = .next
    (s.ppcEnd ((s.ppc.pressed x).release x s.idlePhase s.ppc.regime).ppc ((s.ppc.pressed x).release x s.idlePhase s.ppc.regime).pulses) :=
  congrArg Host.Outcome.next (if_neg (by simp [h]))

/-- Settles O29: the press is recorded, the release is judged on the record that holds it, and the event ends with its
settlement. -/
theorem leverPressReleases : Obligations.LeverPressReleases := by
  unfold Obligations.LeverPressReleases
  intro x s hl hlen
  have hp : s.ppc.Switched (s.ppc.pressed x) := s.ppc.setPack_switched x _
  have ho : (s.ppc.pressed x).pack (otherSlot x) = s.ppc.pack (otherSlot x) := Ppc.pack_setPack_other _ _ _
  have hown : (s.ppc.pressed x).pack x = (s.ppc.pack x).withLever true := Ppc.pack_setPack _ _ _
  refine ⟨_, ((s.ppc.pressed x).release x s.idlePhase s.ppc.regime).result, exec_leverPress hl, State.release_released (s := s.setPpc (s.ppc.pressed x)) (s.ppcEnd_ppc_pack _ _ x) (fun hi => ?_),
    s.ppcEnd_release_slot x _ hp ho, s.ppcEnd_release_alone x _ hp hlen, fun r hr => s.occurred_ppcEnd hlen (Ppc.release_refuses hr),
    fun hd hu => s.occurred_ppcEnd hlen (Ppc.release_unlocks hd ?_), fun hdone hon hd => ?_⟩
  · have hr : ((s.ppc.pressed x).release x s.idlePhase s.ppc.regime).ppc = s.ppc.pressed x := Ppc.release_ignored_ppc hi
    rw [hr]
    unfold State.ppcEnd
    rw [if_pos (s.ppc.pressed_switches x), State.ppcQuiet_ppc, State.setPpc_ppc]
  · rwa [State.ppcEnd_ppc_pack] at hu
  · obtain ⟨hb, ht, hother⟩ := Ppc.release_handover hdone (by rw [hown]; exact hon) (hp.dcinOk.trans hd)
    rw [hp.bridgeFitted] at hb
    rw [ho] at hother
    rw [State.ppcEnd_ppc_switch, State.ppcEnd_ppc_pack, State.ppcEnd_ppc_settleTimer]
    exact ⟨hb, fun hs => by rw [hother hs]; exact ⟨rfl, rfl⟩, ht⟩

/-! ### PACK_RELEASE -/

theorem AloneFollows.refl (s : State) : AloneFollows s s :=
  ⟨fun h0 h1 => absurd (h0.symm.trans h1) Bool.false_ne_true, fun h0 h1 => absurd (h1.symm.trans h0) Bool.false_ne_true⟩

theorem CeilingFollows.refl (s : State) : CeilingFollows s s := fun h => ⟨h.symm, fun _ => ⟨rfl, rfl⟩, fun hn => absurd h hn⟩

/-- The frame of PPC's event, with the reply that follows it. -/
theorem OnlyPower.reply {s u : State} {es : List Event} (h : OnlyPower s u es) (g : Byte) (st : Status) (p : List Byte) :
    OnlyPowerReply s (u.answer g st p) es := by
  obtain ⟨⟨hsrt, hmtm, _, hpend, hlki⟩, hlmc, hntu⟩ := h
  unfold OnlyPowerReply
  rw [State.answer_srt, State.answer_mtm, State.answer_pending, State.answer_lmc, State.answer_ntu]
  exact ⟨hsrt, hmtm, hpend, Lki.onlyNorth_trans (Lki.onlyNotice_north hlki) (u.answer_onlyNorth g st p), hlmc, hntu⟩

/-- The answer of an owner whose event was one of PPC. -/
theorem OnlyPower.answered {s : State} {es : List Event} {c : RequestCode} {owner : List Byte → State → Answer} {g : Byte}
    {a : List Byte} (h : OnlyPower s (owner a s).state es) (hs : Serving s c g a) (hl : c.lengthOk a = true)
    (hr : c.reservedSet a = false) : Answered s (s.serve c owner) g (owner a s).status (owner a s).payload :=
  s.serve_answered c owner g a hs hl hr (Lki.onlyNotice_replyTrail h.1.2.2.2.2) h.1.2.2.1

section
variable {s : State} {x : Slot}

theorem packReleaseOwner_badIndex {n : Byte} (h : 1 < n.toNat) : packReleaseOwner [n] s = ⟨s, .badIndex, []⟩ := by
  simp only [packReleaseOwner, u8, List.getD_cons_zero, slotOfCode_eq_none h]
  rfl

theorem packReleaseOwner_ignored (h : (s.ppc.release x s.idlePhase .attended).result = .ignored) :
    packReleaseOwner [if x = .a then 0#8 else 1#8] s = ⟨s, .refused, [5#8]⟩ := by
  simp only [packReleaseOwner, slotOfCode_of_byte, h]
  rfl

theorem packReleaseOwner_refused {why : Reason} (h : (s.ppc.release x s.idlePhase .attended).result = .refused why) :
    packReleaseOwner [if x = .a then 0#8 else 1#8] s
      = ⟨s.ppcEnd (s.ppc.release x s.idlePhase .attended).ppc (s.ppc.release x s.idlePhase .attended).pulses, .refused,
          [BitVec.ofNat 8 why.code]⟩ := by
  simp only [packReleaseOwner, slotOfCode_of_byte, h]
  rfl

theorem packReleaseOwner_done (h : (s.ppc.release x s.idlePhase .attended).result = .done) :
    packReleaseOwner [if x = .a then 0#8 else 1#8] s
      = ⟨s.ppcEnd (s.ppc.release x s.idlePhase .attended).ppc (s.ppc.release x s.idlePhase .attended).pulses, .ok, []⟩ := by
  simp only [packReleaseOwner, slotOfCode_of_byte, h]
  rfl

end

theorem OnlyReply.power {s t : State} (h : OnlyReply s t) (es : List Event) : OnlyPowerReply s t es := by
  obtain ⟨hlki, hsrt, _, hlmc, hmtm, hntu, hpend⟩ := h
  unfold OnlyPowerReply
  rw [hlmc, hntu]
  exact ⟨hsrt, hmtm, hpend, hlki, Lmc.onlyTarget_refl _, Ntu.onlyEvents_refl _ _⟩

/-- The end of a release that PACK_RELEASE asked for and that was not ignored. -/
def State.releaseEvent (s : State) (x : Slot) : State :=
  s.ppcEnd (s.ppc.release x s.idlePhase .attended).ppc (s.ppc.release x s.idlePhase .attended).pulses

theorem State.releaseEvent_slot (s : State) (x : Slot) : OnlySlot s (s.releaseEvent x) x [.swapRefused, .swapReady] :=
  s.ppcEnd_release_slot x .attended (.refl _) rfl

theorem State.releaseEvent_told (s : State) (x : Slot) : Told s (s.releaseEvent x) := .ppcEnd s _ _

/-- What the answer to a release shows of it. -/
theorem State.releaseEvent_answer (s : State) (x : Slot) (hlen : s.ntu.table.length = 32) (g : Byte) (st : Status) (p : List Byte) :
    let t := (s.releaseEvent x).answer g st p
    t.ppc.pack x = (s.ppc.release x s.idlePhase .attended).ppc.pack x ∧ AloneFollows s t
      ∧ OnlyPowerReply s t [.swapRefused, .swapReady] ∧ s.ppc.onlySelection t.ppc ∧ CeilingFollows s t
      ∧ ∀ e ∈ (s.ppc.release x s.idlePhase .attended).pulses, Occurred s t e := by
  have hafter := Settled.answer (s.releaseEvent x) g st p
  have htold := s.releaseEvent_told x
  obtain ⟨hpow, hsel, hceil, _⟩ := s.releaseEvent_slot x
  refine ⟨?_, hafter.aloneFollows htold (s.ppcEnd_release_alone x .attended (.refl _) hlen), hpow.reply g st p, ?_,
    hafter.ceilingFollows htold hceil, fun e he => hafter.occurred htold (s.occurred_ppcEnd hlen he)⟩
  · rw [hafter.ppc]; exact s.ppcEnd_ppc_pack _ _ x
  · rwa [hafter.ppc]

theorem State.releaseEvent_handover {s : State} {x : Slot} (h : (s.ppc.release x s.idlePhase .attended).result = .done)
    (hon : (s.ppc.pack x).state = .online) (hd : s.ppc.dcinOk = false) :
    (s.ppc.bridge.fitted = true → (s.releaseEvent x).ppc.bridge.switch = true) ∧ (s.releaseEvent x).ppc.settleTimer = some 20
      ∧ ((s.ppc.pack (otherSlot x)).state = .standby → ((s.releaseEvent x).ppc.pack (otherSlot x)).state = .online) := by
  obtain ⟨hb, ht, hother⟩ := Ppc.release_handover h hon hd
  unfold State.releaseEvent
  rw [State.ppcEnd_ppc_switch, State.ppcEnd_ppc_settleTimer, State.ppcEnd_ppc_pack]
  exact ⟨hb, ht, fun hs => by rw [hother hs]⟩

/-- Settles O49: in ATTENDED the release is judged as a lever press is; an ignored one is refused without an event (R38, R158). -/
theorem packReleaseAnswers : Obligations.PackReleaseAnswers := by
  unfold Obligations.PackReleaseAnswers
  intro s tag n hserving hlen
  refine ⟨fun hn => ?_, fun x hx => ?_⟩
  · obtain ⟨ha, ho⟩ := s.serve_only .packRelease packReleaseOwner tag [n] _ _ hserving rfl rfl (packReleaseOwner_badIndex hn)
    exact ⟨_, rfl, ha, ho⟩
  subst hx
  have hserve := s.serve_ok .packRelease packReleaseOwner tag _ hserving rfl rfl
  have hanswered := fun h => OnlyPower.answered (owner := packReleaseOwner) (es := [.swapRefused, .swapReady]) h hserving rfl rfl
  have hevent := s.releaseEvent_answer x hlen tag
  refine ⟨_, (s.ppc.release x s.idlePhase .attended).result, rfl, ?_⟩
  cases hres : (s.ppc.release x s.idlePhase .attended).result with
  | ignored =>
    have howner := packReleaseOwner_ignored hres
    obtain ⟨ha, honly⟩ := s.serve_only .packRelease packReleaseOwner tag _ _ _ hserving rfl rfl howner
    rw [howner] at hserve
    rw [hserve] at ha honly ⊢
    have hafter := Settled.answer s tag .refused [5#8]
    have hrel := State.release_released (s := s) (t := s.answer tag .refused [5#8]) (x := x) (r := .attended)
      (by rw [hafter.ppc, Ppc.release_ignored_ppc hres]) fun _ => hafter.ppc
    rw [hres] at hrel
    exact ⟨hrel, hafter.aloneFollows (.refl s) (.refl s), honly.power _, by rw [hafter.ppc]; exact s.ppc.onlySelection_refl,
      hafter.ceilingFollows (.refl s) (.refl s), fun _ => ⟨ha, honly⟩, nofun, nofun, nofun⟩
  | refused why =>
    have howner := packReleaseOwner_refused hres
    have ha := hanswered (by rw [howner]; exact (s.releaseEvent_slot x).1)
    rw [howner] at hserve ha
    rw [hserve] at ha ⊢
    obtain ⟨hpack, halone, hframe, hsel, hceil, hocc⟩ := hevent .refused [BitVec.ofNat 8 why.code]
    have hrel := State.release_released hpack (by rw [hres]; exact nofun)
    rw [hres] at hrel
    refine ⟨hrel, halone, hframe, hsel, hceil, nofun, fun r hr => ?_, nofun, nofun⟩
    cases hr
    exact ⟨ha, hocc _ (Ppc.release_refuses hres)⟩
  | done =>
    have howner := packReleaseOwner_done hres
    have ha := hanswered (by rw [howner]; exact (s.releaseEvent_slot x).1)
    rw [howner] at hserve ha
    rw [hserve] at ha ⊢
    obtain ⟨hpack, halone, hframe, hsel, hceil, hocc⟩ := hevent .ok []
    have hrel := State.release_released hpack (by rw [hres]; exact nofun)
    rw [hres] at hrel
    refine ⟨hrel, halone, hframe, hsel, hceil, nofun, nofun, fun _ => ⟨ha, fun hu => hocc _ (Ppc.release_unlocks hres ?_)⟩,
      fun _ hon hd => ?_⟩
    · rwa [← hpack]
    · have hhand := State.releaseEvent_handover hres hon hd
      rwa [← (s.releaseEvent x).answer_ppc tag .ok []] at hhand

end Sys2Proof.Machine
end

section
/-! A change of DCIN_OK (R34): the external supply takes the load, or hands it to the pack with more energy. -/

namespace Sys2Proof.Machine

section
variable (s : State) (p : Ppc) (ps : List Event)
@[simp] theorem State.ppcSettle_swDc : (s.ppcSettle p ps).ppc.swDc = p.swDc := by
  rw [State.ppcSettle_ppc]; exact Ppc.settle_swDc s.ppc p s.lmc.out
@[simp] theorem State.ppcSettle_settleTimer : (s.ppcSettle p ps).ppc.settleTimer = p.settleTimer := by
  rw [State.ppcSettle_ppc]; exact Ppc.settle_settleTimer s.ppc p s.lmc.out
@[simp] theorem State.ppcSettle_switch : (s.ppcSettle p ps).ppc.bridge.switch = p.bridge.switch := by
  rw [State.ppcSettle_ppc]; exact Ppc.settle_switch s.ppc p s.lmc.out
end

/-- Which of two STANDBY packs is chosen (R33 step 3). -/
theorem Ppc.choose_iff {p : Ppc} (hd : p.dcinOk = false) {x : Slot} (hx : (p.pack x).state = .standby) :
    p.choose = some x ↔ (p.pack (otherSlot x)).state ≠ .standby ∨ (p.pack (otherSlot x)).energy < (p.pack x).energy
      ∨ (p.pack (otherSlot x)).energy = (p.pack x).energy ∧ x = .a := by
  unfold Ppc.choose
  cases x with
  | a =>
    have ha : p.packA.state = .standby := hx
    by_cases hb : p.packB.state = .standby <;> simp [hd, ha, hb, Ppc.pack, otherSlot]
    omega
  | b =>
    have hb : p.packB.state = .standby := hx
    by_cases ha : p.packA.state = .standby <;> simp [hd, ha, hb, Ppc.pack, otherSlot]

/-- The records after SW_DC opens, before the load is handed on (R34). -/
def Ppc.dcLost (p : Ppc) : Ppc := { ({ p with dcinOk := false } : Ppc).closeBridge with swDc := false }

theorem Ppc.dcLost_pack (p : Ppc) (x : Slot) : p.dcLost.pack x = p.pack x := by
  unfold Ppc.dcLost Ppc.closeBridge
  split <;> cases x <;> rfl

theorem Ppc.dcLost_bridge (p : Ppc) : p.dcLost.bridge = { p.bridge with switch := p.bridge.switch || p.bridge.fitted } := by
  unfold Ppc.dcLost Ppc.closeBridge
  split
  · next hf =>
    have hc : (p.bridge.switch || p.bridge.fitted) = true := by rw [show p.bridge.fitted = true from hf, Bool.or_true]
    rw [hc]
  · next hf =>
    have hc : (p.bridge.switch || p.bridge.fitted) = p.bridge.switch := by
      rw [show p.bridge.fitted = false by simpa using hf, Bool.or_false]
    rw [hc]

theorem Ppc.dcLost_dcinOk (p : Ppc) : p.dcLost.dcinOk = false := by
  unfold Ppc.dcLost Ppc.closeBridge
  split <;> rfl

theorem Ppc.dcChange_true (p : Ppc) : p.dcChange true = ({ p with dcinOk := true } : Ppc).selectDc := by
  unfold Ppc.dcChange
  simp [Ppc.select]

/-- With no pack ONLINE, the pack that is chosen takes the load, and selection then has nothing to do (R33, R34). -/
theorem Ppc.dcChange_false {p : Ppc} (ho : ∀ x, (p.pack x).state ≠ .online) :
    p.dcChange false = p.dcLost.endTransfer p.dcLost.choose := by
  have hd : (p.dcLost.endTransfer p.dcLost.choose).dcinOk = false := by
    rw [(Ppc.endTransfer_switched _ _).dcinOk, p.dcLost_dcinOk]
  have hsel : p.dcChange false = (p.dcLost.endTransfer p.dcLost.choose).select := rfl
  rw [hsel]
  cases hc : p.dcLost.choose with
  | none =>
    refine Ppc.select_idle _ (hc ▸ hd) fun x => ?_
    rw [Ppc.endTransfer_none_pack]
    exact ⟨by rw [p.dcLost_pack]; exact ho x, p.dcLost.choose_none hc p.dcLost_dcinOk x⟩
  | some y =>
    obtain ⟨_, _, hmore⟩ := p.dcLost.choose_some y hc
    have hother := Ppc.endTransfer_some_pack_ne p.dcLost y (otherSlot y) (otherSlot_ne y)
    have hrot : (p.dcLost.endTransfer (some y)).rotates y = false := by
      rw [Bool.eq_false_iff]
      intro hr
      simp only [Ppc.rotates, Bool.and_eq_true, decide_eq_true_eq, beq_iff_eq] at hr
      obtain ⟨⟨_, hst⟩, hgap⟩ := hr
      rw [hother] at hst hgap
      rw [Ppc.endTransfer_some_pack] at hgap
      have hle := hmore hst
      simp only [Pack.energy] at hgap hle
      omega
    have honline : (p.dcLost.endTransfer (some y)).onlineSlot = some y := by
      cases hs : (p.dcLost.endTransfer (some y)).onlineSlot with
      | none => exact absurd (by rw [Ppc.endTransfer_some_pack]) (Ppc.onlineSlot_none _ hs y)
      | some z =>
        rcases Slot.eq_or_other y z with rfl | rfl
        · rfl
        · have := Ppc.onlineSlot_some _ _ hs
          rw [hother, p.dcLost_pack] at this
          exact absurd this (ho _)
    unfold Ppc.select
    rw [hc] at hd
    simp [hd, honline, hrot]

theorem Ppc.dcChange_switched (p : Ppc) (level : Bool) :
    ({ p with dcinOk := level } : Ppc).onlySelection (p.dcChange level)
      ∧ (p.dcChange level).bridge = { p.bridge with switch := (p.dcChange level).bridge.switch }
      ∧ (p.dcChange level).budget = p.budget := by
  cases level with
  | true =>
    have h : ({ p with dcinOk := true } : Ppc).Switched (p.dcChange true) := Ppc.select_switched _
    exact ⟨h.only, h.bridge, h.budget⟩
  | false =>
    have h0 : ({ p with dcinOk := false } : Ppc).Switched p.dcLost := by
      unfold Ppc.dcLost Ppc.closeBridge
      split <;> exact ⟨rfl, rfl, rfl⟩
    have h : ({ p with dcinOk := false } : Ppc).Switched (p.dcChange false) :=
      (h0.trans (Ppc.endTransfer_switched _ _)).trans (Ppc.select_switched _)
    exact ⟨h.only, h.bridge, h.budget⟩

theorem exec_dcinOkChange {s : State} {level : Bool} (h : s.ppc.dcinOk = !level) :
    exec (.dcinOkChange level) s = .next (s.ppcSettle (s.ppc.dcChange level) [.dcChange]) :=
  congrArg Host.Outcome.next (if_neg (by simp [h]))

/-- DCIN_OK set in a safe state (R33 step 1). -/
theorem Ppc.dcChange_set {p : Ppc} (h : p.swDc = false) :
    (p.dcChange true).settleTimer = p.settleTimer
      ∧ (∀ x, (p.dcChange true).pack x
          = if (p.pack x).state = .online then { p.pack x with state := .standby, switch := false } else p.pack x)
      ∧ (p.dcChange true).bridge.switch = (p.bridge.switch && (p.settleTimer.isSome || p.brace)) := by
  rw [Ppc.dcChange_true]
  unfold Ppc.selectDc
  dsimp only
  refine ⟨?_, fun x => ?_, ?_⟩
  · split <;> rfl
  · split <;> cases x <;> rfl
  · cases ht : p.settleTimer <;> cases hb : p.brace <;> simp [h, Ppc.openBridge]

/-- DCIN_OK clear in a safe state (R34, R35). -/
theorem Ppc.dcChange_clear {p : Ppc} (ho : ∀ x, (p.pack x).state ≠ .online) :
    (p.dcChange false).settleTimer = some 20 ∧ (p.dcChange false).bridge.switch = (p.bridge.switch || p.bridge.fitted)
      ∧ (∀ x, (p.pack x).state ≠ .standby → (p.dcChange false).pack x = p.pack x)
      ∧ ∀ x, (p.pack x).state = .standby → (p.dcChange false).pack x =
          if (p.pack (otherSlot x)).state ≠ .standby ∨ (p.pack (otherSlot x)).energy < (p.pack x).energy
              ∨ (p.pack (otherSlot x)).energy = (p.pack x).energy ∧ x = .a
            then { p.pack x with state := .online, switch := true } else p.pack x := by
  have hchosen : ∀ x, (p.dcChange false).pack x
      = if p.dcLost.choose = some x then { p.pack x with state := .online, switch := true } else p.pack x := fun x => by
    rw [Ppc.dcChange_false ho]
    cases hc : p.dcLost.choose with
    | none => rw [Ppc.endTransfer_none_pack, p.dcLost_pack, if_neg nofun]
    | some y =>
      by_cases hxy : x = y
      · subst hxy; rw [Ppc.endTransfer_some_pack, p.dcLost_pack, if_pos rfl]
      · rw [Ppc.endTransfer_some_pack_ne _ _ _ hxy, p.dcLost_pack, if_neg fun he => hxy (Option.some.inj he).symm]
  refine ⟨?_, ?_, fun x hx => ?_, fun x hx => ?_⟩
  · rw [Ppc.dcChange_false ho, Ppc.endTransfer_settleTimer]; rfl
  · rw [Ppc.dcChange_false ho, Ppc.endTransfer_bridge, Ppc.dcLost_bridge]
  · rw [hchosen, if_neg fun hc => hx (p.dcLost_pack x ▸ (p.dcLost.choose_some x hc).2.1)]
  · rw [hchosen]
    have hiff := Ppc.choose_iff p.dcLost_dcinOk (x := x) (by rwa [p.dcLost_pack])
    rw [p.dcLost_pack, p.dcLost_pack] at hiff
    simp only [hiff]

/-- Settles O30: in a safe state SW_DC follows DCIN_OK (`Ppc.dcChange_steady`), and the other source stands down or takes over. -/
theorem dcChangeSwitches : Obligations.DcChangeSwitches := by
  unfold Obligations.DcChangeSwitches
  intro level s hd hsafe hlen
  obtain ⟨honly, hbridge, hbudget⟩ := s.ppc.dcChange_switched level
  have hsteady := Ppc.dcChange_steady hsafe.steady.ordered (level := level) (by rw [hd]; cases level <;> exact nofun)
  have hpack := s.ppcSettle_pack (s.ppc.dcChange level) [.dcChange]
  have hdc : (s.ppc.dcChange level).swDc = level := hsteady.ordered.dc.trans (by rw [honly])
  refine ⟨_, exec_dcinOkChange hd, s.ppcSettle_only _ _, (Reached.refl s).occurred_ppcSettle hlen _ (List.mem_singleton_self _),
    Ppc.onlySelection_trans honly (s.ppcSettle_onlySelection _ _), ?_, s.ppcSettle_settled _ _,
    (Reached.refl s).alone_ppcSettle hlen hbridge (by simp), (LightQuiet.refl s).delivered_ppcSettle (by rw [hbudget]) (by simp) (by simp),
    fun hl => ?_, fun hl => ?_⟩
  · rw [State.ppcSettle_swDc]; exact hdc
  · subst hl
    obtain ⟨ht, hp, hb⟩ := Ppc.dcChange_set (hsafe.steady.ordered.dc.trans hd)
    refine ⟨?_, fun x => (hpack x).trans (hp x), ?_⟩
    · rw [State.ppcSettle_settleTimer]; exact ht
    · rw [State.ppcSettle_switch]; exact hb
  · subst hl
    have ho : ∀ x, (s.ppc.pack x).state ≠ .online := fun x hx => by
      have := (hsafe.steady.ordered.online hx).1
      rw [hd] at this
      cases this
    obtain ⟨ht, hb, hkeep, hclose⟩ := Ppc.dcChange_clear ho
    refine ⟨?_, ?_, fun x hx => (hpack x).trans (hkeep x hx), fun x hx => (hpack x).trans (hclose x hx)⟩
    · rw [State.ppcSettle_settleTimer]; exact ht
    · rw [State.ppcSettle_switch]; exact hb

end Sys2Proof.Machine
end

section
/-! The requests that change settings of PPC (R23, R61, R63): the arguments are echoed as they came, and the budget is settled. -/

namespace Sys2Proof.Machine

/-! ### Arguments and their echo (R172) -/

section
variable (a : List Byte) (i : Nat)

theorem b8_u8 : b8 (u8 a i) = [a.getD i 0#8] := by simp [b8, u8]

theorem le16_u16 : le16 (u16 a i) = [a.getD i 0#8, a.getD (i + 1) 0#8] := by
  have h0 := (a.getD i 0#8).isLt
  have h1 := (a.getD (i + 1) 0#8).isLt
  unfold le16 u16 u8
  congr 1
  · apply BitVec.eq_of_toNat_eq
    rw [BitVec.toNat_ofNat]
    omega
  · congr 1
    apply BitVec.eq_of_toNat_eq
    rw [BitVec.toNat_ofNat]
    omega

theorem u16_lt : u16 a i < 65536 := by
  have h0 := (a.getD i 0#8).isLt
  have h1 := (a.getD (i + 1) 0#8).isLt
  unfold u16 u8
  omega

theorem sle16_s16 : sle16 (s16 a i) = [a.getD i 0#8, a.getD (i + 1) 0#8] := by
  have hlt := u16_lt a i
  have hmod : (s16 a i % 65536).toNat = u16 a i := by
    unfold s16
    dsimp only
    split <;> omega
  rw [sle16, hmod, le16_u16]

theorem le32_u32 : le32 (u32 a i) = [a.getD i 0#8, a.getD (i + 1) 0#8, a.getD (i + 2) 0#8, a.getD (i + 3) 0#8] := by
  have hlt := u16_lt a i
  have hhigh : u32 a i / 65536 = u16 a (i + 2) := by unfold u32; omega
  have hlow : le16 (u32 a i) = le16 (u16 a i) := by
    unfold le16 u32
    congr 1
    · apply BitVec.eq_of_toNat_eq
      rw [BitVec.toNat_ofNat, BitVec.toNat_ofNat]
      omega
    · congr 1
      apply BitVec.eq_of_toNat_eq
      rw [BitVec.toNat_ofNat, BitVec.toNat_ofNat]
      omega
  rw [le32, hhigh, hlow, le16_u16, le16_u16]
  rfl

end

theorem take_drop_eq {a : List Byte} {i n : Nat} (h : i + n ≤ a.length) :
    (a.drop i).take n = (List.range n).map fun k => a.getD (i + k) 0#8 := by
  refine List.ext_getElem (by simp; omega) fun k h1 h2 => ?_
  have hk : k < n := by simpa using h2
  simp [List.getD_eq_getElem?_getD, List.getElem?_eq_getElem (show i + k < a.length by omega)]

section
variable {a : List Byte} {i : Nat}
theorem b8_field (h : i + 1 ≤ a.length) : b8 (u8 a i) = (a.drop i).take 1 := by rw [b8_u8, take_drop_eq h]; rfl
theorem le16_field (h : i + 2 ≤ a.length) : le16 (u16 a i) = (a.drop i).take 2 := by rw [le16_u16, take_drop_eq h]; rfl
theorem sle16_field (h : i + 2 ≤ a.length) : sle16 (s16 a i) = (a.drop i).take 2 := by rw [sle16_s16, take_drop_eq h]; rfl
theorem le32_field (h : i + 4 ≤ a.length) : le32 (u32 a i) = (a.drop i).take 4 := by rw [le32_u32, take_drop_eq h]; rfl
end

/-- The echo of a profile is its arguments: the fields follow each other without a gap. -/
theorem PackProfile.bytes_ofArgs {a : List Byte} (h : a.length = 51) : (PackProfile.ofArgs a).bytes = a := by
  unfold PackProfile.bytes PackProfile.ofArgs
  simp (disch := omega) only [b8_field, le16_field, sle16_field, le32_field]
  simp only [List.drop_zero, ← List.take_add, Nat.reduceAdd]
  exact List.take_of_length_le h.le

theorem BridgeSettings.bytes_ofArgs {a : List Byte} (h : a.length = 10) : (BridgeSettings.ofArgs a).bytes = a := by
  unfold BridgeSettings.bytes BridgeSettings.ofArgs
  simp (disch := omega) only [le16_field, le32_field]
  simp only [List.drop_zero, ← List.take_add, Nat.reduceAdd]
  exact List.take_of_length_le h.le

theorem clampNat_zero (v hi : Nat) : clampNat v 0 hi = min v hi := by
  unfold clampNat
  rw [if_neg (Nat.not_lt_zero v)]
  split <;> omega

/-! ### A settlement that moves no switch -/

theorem Ppc.closedMainSince_congr {before p : Ppc} (h : p.switches = before.switches) : before.closedMainSince p = false := by
  simp only [Ppc.switches, Prod.mk.injEq] at h
  obtain ⟨h1, h2, h3, _⟩ := h
  simp [Ppc.closedMainSince, h1, h2, h3]

/-- A settlement after which the switches stand as before leaves the bridge record, where that was in step (R56). -/
theorem Ppc.settle_bridge_still {before p : Ppc} (hs : p.switches = before.switches) (ha : p.bridge.alone = p.carriesAlone)
    (out : Nat) : (before.settle p out).bridge = p.bridge := by
  have hb1 : before.settleBridge p = { p.bridge with alone := p.bridge.alone } := by
    unfold Ppc.settleBridge
    simp only [← ha, Ppc.closedMainSince_congr hs]
    cases p.bridge.alone <;> simp
  have hw : before.windowStart p = none := by
    unfold Ppc.windowStart
    simp [← ha]
  unfold Ppc.settle
  simp only [hw, hb1]

theorem State.ppcSettle_bridge_still {s : State} (h : s.ppc.safe) {p : Ppc} (hs : p.switches = s.ppc.switches)
    (ha : p.bridge.alone = s.ppc.bridge.alone) (ps : List Event) : (s.ppcSettle p ps).ppc.bridge = p.bridge := by
  rw [State.ppcSettle_ppc]
  exact Ppc.settle_bridge_still hs (by rw [ha, h.inStep, Ppc.carriesAlone_congr hs]) s.lmc.out

/-! ### A request that settles -/

section
variable {s : State} {c : RequestCode} {owner : List Byte → State → Answer} {tag : Byte} {a payload : List Byte} {p : Ppc}
  (hs : Serving s c tag a) (hl : c.lengthOk a = true) (hr : c.reservedSet a = false)
  (ho : owner a s = ⟨s.ppcSettle p [], .ok, payload⟩)
include hs hl hr ho

theorem State.serve_settles_eq : s.serve c owner = (s.ppcSettle p []).answer tag .ok payload := by
  rw [s.serve_ok c owner tag a hs hl hr, ho]

theorem State.serve_settles_ppc : (s.serve c owner).ppc = (s.ppcSettle p []).ppc := by
  rw [State.serve_settles_eq hs hl hr ho, State.answer_ppc]

/-- What a request that settles shows to the host and to LMC (R56, R62). -/
theorem State.serve_settles (hb : p.budget = s.ppc.budget) :
    Answered s (s.serve c owner) tag .ok payload ∧ OnlyPowerReply s (s.serve c owner) []
      ∧ (s.serve c owner).ppc.settled ∧ CeilingDelivered s.lmc s (s.serve c owner) := by
  have hpow := s.ppcSettle_only p []
  have ha := OnlyPower.answered (owner := owner) (by rw [ho]; exact hpow) hs hl hr
  rw [ho] at ha
  have heq := State.serve_settles_eq hs hl hr ho
  rw [heq] at ha ⊢
  refine ⟨ha, hpow.reply tag .ok payload, by rw [State.answer_ppc]; exact s.ppcSettle_settled p [], ?_⟩
  exact (Settled.answer _ tag .ok payload).ceilingDelivered (.ppcSettle s p [])
    ((LightQuiet.refl s).delivered_ppcSettle (by rw [hb]) (by simp) (by simp))

end

/-! ### PACK_PROFILE_WRITE -/

theorem Pack.reallow_sampled {k : Pack} {g : GaugeSample} (h : k.sample = some g) (f : PackProfile) :
    k.reallow f = { k with allowance := if k.stale then f.staleAllow else f.allowance g } := by
  unfold Pack.reallow
  rw [h]

theorem Pack.reallow_none {k : Pack} (h : k.sample = none) (f : PackProfile) : k.reallow f = k := by
  unfold Pack.reallow
  rw [h]

theorem Ppc.withProfile_pack (p : Ppc) (f : PackProfile) (x : Slot) : (p.withProfile f).pack x = (p.pack x).reallow f := by
  cases x <;> rfl

theorem Ppc.withProfile_switches (p : Ppc) (f : PackProfile) : (p.withProfile f).switches = p.switches := by
  simp [Ppc.switches, Ppc.withProfile]

theorem packProfileOwner_bad {s : State} {a : List Byte} (h : (PackProfile.ofArgs a).ok = false) :
    packProfileOwner a s = ⟨s, .badField, []⟩ := by
  unfold packProfileOwner
  simp only [h]
  rfl

theorem packProfileOwner_ok {s : State} {a : List Byte} (h : (PackProfile.ofArgs a).ok = true) (hl : a.length = 51) :
    packProfileOwner a s = ⟨s.ppcSettle (s.ppc.withProfile (PackProfile.ofArgs a)) [], .ok, a⟩ := by
  unfold packProfileOwner
  simp only [h, PackProfile.bytes_ofArgs hl]
  rfl

/-! ### POWER_SET and BRIDGE_SET -/

theorem powerSetOwner_bad {s : State} {a : List Byte} (h : 20000 < u16 a 6) : powerSetOwner a s = ⟨s, .badField, []⟩ := if_pos h

/-- The power settings that the arguments of POWER_SET ask for, clamped (R61). -/
def PowerSettings.asked (a : List Byte) : PowerSettings :=
  { pSys := min (u16 a 0) 60000, dcLimit := min (u32 a 2) 100000, margin := u16 a 6 }

theorem PowerSettings.clamped_ofArgs (a : List Byte) : (PowerSettings.ofArgs a).clamped = .asked a := by
  simp [PowerSettings.clamped, PowerSettings.ofArgs, PowerSettings.asked, clampNat_zero]

theorem powerSetOwner_ok {s : State} {a : List Byte} (h : u16 a 6 ≤ 20000) : powerSetOwner a s
    = ⟨s.ppcSettle { s.ppc with power := .asked a } [], .ok, (PowerSettings.asked a).bytes⟩ := by
  rw [← PowerSettings.clamped_ofArgs]
  exact if_neg (Nat.not_lt.2 h)

theorem bridgeSetOwner_bad {s : State} {a : List Byte} (h : 100000 < u32 a 6) : bridgeSetOwner a s = ⟨s, .badField, []⟩ := if_pos h

theorem bridgeSetOwner_ok {s : State} {a : List Byte} (h : u32 a 6 ≤ 100000) (hl : a.length = 10) : bridgeSetOwner a s
    = ⟨s.ppcSettle { s.ppc with bridgeSet := .ofArgs a, bridge := s.ppc.bridge.relow (.ofArgs a) } [], .ok, a⟩ := by
  have ho : bridgeSetOwner a s = Answer.ok _ _ := if_neg (Nat.not_lt.2 h)
  rw [ho, BridgeSettings.bytes_ofArgs hl]
  rfl

/-- The ranges and orders of Table 2-2, by the places of the arguments (R23). -/
theorem PackProfile.ok_ofArgs (a : List Byte) : (PackProfile.ofArgs a).ok = true ↔
    u16 a 0 ≤ 20000 ∧ u16 a 2 ≤ 20000 ∧ 1 ≤ u8 a 4 ∧ u8 a 4 ≤ 15 ∧ 100 ≤ u16 a 5 ∧ u16 a 5 ≤ 60000
      ∧ (∀ o ∈ [7, 9, 13, 15, 17], -400 ≤ s16 a o ∧ s16 a o ≤ 1000) ∧ u16 a 11 ≤ 20000
      ∧ (∀ o ∈ [19, 21, 23, 25], u16 a o ≤ 20000) ∧ u32 a 27 ≤ 100000 ∧ u32 a 31 ≤ 100000
      ∧ 100 ≤ u16 a 35 ∧ u16 a 35 ≤ 10000 ∧ u32 a 37 ≤ 200000 ∧ u32 a 41 ≤ 200000 ∧ u16 a 45 ≤ 20000
      ∧ 10 ≤ u16 a 47 ∧ u16 a 47 ≤ 5000 ∧ 1000 ≤ u16 a 49 ∧ u16 a 49 ≤ 60000
      ∧ u16 a 0 ≤ u16 a 2 ∧ s16 a 7 < s16 a 9 ∧ s16 a 13 ≤ s16 a 15 ∧ s16 a 15 ≤ s16 a 17 := by
  unfold PackProfile.ok
  simp only [Bool.and_eq_true, decide_eq_true_eq]
  simp only [PackProfile.ofArgs, List.forall_mem_cons, List.not_mem_nil, false_implies, implies_true, and_true]
  constructor <;> intro h <;> simp only [h, and_self]

section
variable {s : State} {tag : Byte} {a : List Byte}

/-- A profile in range: stored, the allowances recomputed under it, and nothing switched (R23, R55). -/
theorem exec_packProfileWrite_ok (hs : Serving s .packProfileWrite tag a) (hlen : a.length = 51)
    (hok : (PackProfile.ofArgs a).ok = true) :
    ∃ t, exec .packProfileWrite s = .next t ∧ Answered s t tag .ok a ∧ OnlyPowerReply s t []
      ∧ t.ppc.profile = .ofArgs a ∧ t.ppc.settled ∧ CeilingDelivered s.lmc s t
      ∧ (∀ x g, (s.ppc.pack x).sample = some g → t.ppc.pack x = { s.ppc.pack x with
          allowance := if (s.ppc.pack x).stale then (PackProfile.ofArgs a).staleAllow else (PackProfile.ofArgs a).allowance g })
      ∧ (∀ x, (s.ppc.pack x).sample = none → t.ppc.pack x = s.ppc.pack x)
      ∧ ({ s.ppc with profile := .ofArgs a }).onlySelection t.ppc ∧ t.ppc.settleTimer = s.ppc.settleTimer
      ∧ t.ppc.bridge.switch = s.ppc.bridge.switch ∧ t.ppc.swDc = s.ppc.swDc
      ∧ (s.ppc.safe → t.ppc.bridge = s.ppc.bridge) := by
  have hl : RequestCode.packProfileWrite.lengthOk a = true := by simpa [RequestCode.lengthOk, RequestCode.argLength] using hlen
  have ho := packProfileOwner_ok (s := s) hok hlen
  obtain ⟨hans, honly, hset, hceil⟩ := State.serve_settles hs hl rfl ho rfl
  have hp := State.serve_settles_ppc hs hl rfl ho
  have hpack : ∀ x, (s.serve .packProfileWrite packProfileOwner).ppc.pack x = (s.ppc.pack x).reallow (.ofArgs a) := fun x => by
    rw [hp, State.ppcSettle_pack, Ppc.withProfile_pack]
  refine ⟨_, rfl, hans, honly, ?_, hset, hceil, fun x g hg => ?_, fun x hx => ?_, ?_, ?_, ?_, ?_, fun hsafe => ?_⟩
  · rw [hp, State.ppcSettle_ppc, Ppc.settle_profile]; rfl
  · rw [hpack, Pack.reallow_sampled hg]
  · rw [hpack, Pack.reallow_none hx]
  · rw [hp]; exact State.ppcSettle_onlySelection s (s.ppc.withProfile (.ofArgs a)) []
  · rw [hp, State.ppcSettle_settleTimer]; rfl
  · rw [hp, State.ppcSettle_switch]; rfl
  · rw [hp, State.ppcSettle_swDc]; rfl
  · rw [hp]; exact State.ppcSettle_bridge_still hsafe (s.ppc.withProfile_switches _) rfl []

/-- POWER_SET with MARGIN in range (R61). -/
theorem exec_powerSet_ok (hs : Serving s .powerSet tag a) (hlen : a.length = 8) (hm : u16 a 6 ≤ 20000) :
    ∃ t, exec .powerSet s = .next t ∧ OnlyPowerReply s t [] ∧ t.ppc.settled ∧ CeilingDelivered s.lmc s t
      ∧ t.ppc.power = .asked a ∧ Answered s t tag .ok (PowerSettings.asked a).bytes
      ∧ ({ s.ppc with power := t.ppc.power }).onlySelection t.ppc ∧ t.ppc.packA = s.ppc.packA ∧ t.ppc.packB = s.ppc.packB
      ∧ t.ppc.swDc = s.ppc.swDc ∧ t.ppc.bridge.switch = s.ppc.bridge.switch ∧ t.ppc.settleTimer = s.ppc.settleTimer
      ∧ (s.ppc.safe → t.ppc.bridge = s.ppc.bridge) := by
  have hl : RequestCode.powerSet.lengthOk a = true := by simpa [RequestCode.lengthOk, RequestCode.argLength] using hlen
  have ho := powerSetOwner_ok (s := s) hm
  obtain ⟨hans, honly, hset, hceil⟩ := State.serve_settles hs hl rfl ho rfl
  have hp := State.serve_settles_ppc hs hl rfl ho
  have hpower : (s.serve .powerSet powerSetOwner).ppc.power = .asked a := by
    rw [hp, State.ppcSettle_ppc, Ppc.settle_power]
  refine ⟨_, rfl, honly, hset, hceil, hpower, hans, ?_, ?_, ?_, ?_, ?_, ?_, fun hsafe => ?_⟩
  · rw [hpower, hp]; exact State.ppcSettle_onlySelection s { s.ppc with power := .asked a } []
  · rw [hp]; exact State.ppcSettle_pack s { s.ppc with power := .asked a } [] .a
  · rw [hp]; exact State.ppcSettle_pack s { s.ppc with power := .asked a } [] .b
  · rw [hp, State.ppcSettle_swDc]
  · rw [hp, State.ppcSettle_switch]
  · rw [hp, State.ppcSettle_settleTimer]
  · rw [hp]; exact State.ppcSettle_bridge_still (p := { s.ppc with power := .asked a }) hsafe rfl rfl []

/-- BRIDGE_SET with BR_PMAX in range (R51, R63). -/
theorem exec_bridgeSet_ok (hs : Serving s .bridgeSet tag a) (hlen : a.length = 10) (hm : u32 a 6 ≤ 100000) :
    ∃ t, exec .bridgeSet s = .next t ∧ OnlyPowerReply s t [] ∧ t.ppc.settled ∧ CeilingDelivered s.lmc s t
      ∧ ConditionFollows s t .bridgeLow t.ppc.bridge.low ∧ t.ppc.bridgeSet = .ofArgs a ∧ Answered s t tag .ok a
      ∧ t.ppc.bridge.low = s.ppc.bridge.last.any (fun g => g.charge ≤ u16 a 4)
      ∧ t.ppc.packA = s.ppc.packA ∧ t.ppc.packB = s.ppc.packB ∧ t.ppc.swDc = s.ppc.swDc
      ∧ t.ppc.bridge.switch = s.ppc.bridge.switch ∧ t.ppc.power = s.ppc.power ∧ t.ppc.profile = s.ppc.profile
      ∧ t.ppc.settleTimer = s.ppc.settleTimer ∧ (s.ppc.safe → t.ppc.bridge = { s.ppc.bridge with low := t.ppc.bridge.low }) := by
  have hl : RequestCode.bridgeSet.lengthOk a = true := by simpa [RequestCode.lengthOk, RequestCode.argLength] using hlen
  have ho := bridgeSetOwner_ok (s := s) hm hlen
  obtain ⟨hans, honly, hset, hceil⟩ := State.serve_settles hs hl rfl ho rfl
  have hp := State.serve_settles_ppc hs hl rfl ho
  have hlow : (s.serve .bridgeSet bridgeSetOwner).ppc.bridge.low = (s.ppc.bridge.relow (.ofArgs a)).low := by
    rw [hp, State.ppcSettle_ppc, Ppc.settle_low]
  refine ⟨_, rfl, honly, hset, hceil, ?_, ?_, hans, hlow, ?_, ?_, ?_, ?_, ?_, ?_, ?_, fun hsafe => ?_⟩
  · rw [hp, State.serve_settles_eq hs hl rfl ho]
    exact (Settled.answer _ tag .ok a).conditionFollows (.ppcSettle s _ [])
      ((Reached.refl s).follows_ppcSettle (ps := []) (by decide) (by simp) (Ppc.delivers_bridgeLow _))
  · rw [hp, State.ppcSettle_ppc, Ppc.settle_bridgeSet]
  · rw [hp]; exact State.ppcSettle_pack s { s.ppc with bridgeSet := .ofArgs a, bridge := s.ppc.bridge.relow (.ofArgs a) } [] .a
  · rw [hp]; exact State.ppcSettle_pack s { s.ppc with bridgeSet := .ofArgs a, bridge := s.ppc.bridge.relow (.ofArgs a) } [] .b
  · rw [hp, State.ppcSettle_swDc]
  · rw [hp, State.ppcSettle_switch]; rfl
  · rw [hp, State.ppcSettle_ppc, Ppc.settle_power]
  · rw [hp, State.ppcSettle_ppc, Ppc.settle_profile]
  · rw [hp, State.ppcSettle_settleTimer]
  · rw [hlow, hp]
    exact State.ppcSettle_bridge_still
      (p := { s.ppc with bridgeSet := .ofArgs a, bridge := s.ppc.bridge.relow (.ofArgs a) }) hsafe rfl rfl []

end

/-- Settles O47: the range tests refuse the whole request, and otherwise the settings stand, echoed, with the budget settled. -/
theorem powerRequestsSettle : Obligations.PowerRequestsSettle := by
  unfold Obligations.PowerRequestsSettle
  refine ⟨fun s tag a hs hlen => ⟨fun hbad => ?_, fun hok => ?_⟩,
    fun s tag a => ⟨fun hs hlen => ⟨fun hbad => ?_, exec_powerSet_ok hs hlen⟩,
      fun hs hlen => ⟨fun hbad => ?_, exec_bridgeSet_ok hs hlen⟩⟩⟩
  · have hl : RequestCode.packProfileWrite.lengthOk a = true := by simpa [RequestCode.lengthOk, RequestCode.argLength] using hlen
    rw [← PackProfile.ok_ofArgs, Bool.not_eq_true] at hbad
    exact ⟨_, rfl, s.serve_only .packProfileWrite _ tag a _ _ hs hl rfl (packProfileOwner_bad hbad)⟩
  · exact exec_packProfileWrite_ok hs hlen ((PackProfile.ok_ofArgs a).2 hok)
  · have hl : RequestCode.powerSet.lengthOk a = true := by simpa [RequestCode.lengthOk, RequestCode.argLength] using hlen
    exact ⟨_, rfl, s.serve_only .powerSet _ tag a _ _ hs hl rfl (powerSetOwner_bad hbad)⟩
  · have hl : RequestCode.bridgeSet.lengthOk a = true := by simpa [RequestCode.lengthOk, RequestCode.argLength] using hlen
    exact ⟨_, rfl, s.serve_only .bridgeSet _ tag a _ _ hs hl rfl (bridgeSetOwner_bad hbad)⟩

end Sys2Proof.Machine
end

section
/-! A gauge sample in qualification (R28, R29): the record as its test finds it, and the four outcomes of the test. -/

namespace Sys2Proof.Machine

/-! ### The command -/

section
variable {s u : State} {x : Slot} {b : List Byte}

/-- A tapped gauge sample reaches PPC with PPC, LMC and MTM as they were (R2, R27). -/
theorem Tapped.gauge {f : WireFrame} {i : Nat} {e : RouteEntry} (h : Tapped s f i e (gaugeRole x)) (p : PortId) :
    ∃ u, Reached s u ∧ exec (.sampleFrameReceived p f) s = .next (u.gaugeTap x (sampleOf f.body).payload) := by
  obtain ⟨hf, he, htap, hk, hr⟩ := h
  refine ⟨_, s.reached p i e (sampleOf f.body), congrArg Host.Outcome.next ((s.receivePort_matched p f i e hf hr he).trans ?_)⟩
  rw [htap]
  exact State.tapDeliver_gauge _ _ x (by rw [hk]; cases x <;> rfl)

theorem Reached.gauged (h : Reached s u) (x : Slot) (b : List Byte) : u.gauged x b = s.gauged x b := by
  unfold State.gauged State.idlePhase
  rw [h.ppc, h.mtm]

theorem Reached.gaugeTap_pack (h : Reached s u) (x y : Slot) (b : List Byte) :
    (u.gaugeTap x b).ppc.pack y = (s.gauged x b).1.pack y := by rw [State.gaugeTap_pack, h.gauged]

theorem Reached.occurred_gaugeTap (h : Reached s u) (hlen : s.ntu.table.length = 32) {e : Event} (he : e ∈ (s.gauged x b).2) :
    Occurred s (u.gaugeTap x b) e := by
  rw [← h.gauged] at he
  rcases u.gaugeTap_cases x b with ⟨ht, _⟩ | ht <;> rw [ht]
  · exact h.occurred_ppcSettle hlen _ he
  · exact h.told.occurred_ppcEnd hlen he

end

/-! ### The record that is tested -/

section
variable (k : Pack) (f : PackProfile) (g : GaugeSample)
@[simp] theorem Pack.store_sample : (k.store f g).sample = some g := by rw [Pack.store_only]
@[simp] theorem Pack.store_stale : (k.store f g).stale = false := by rw [Pack.store_only]
@[simp] theorem Pack.store_qual : (k.store f g).qual = k.qual := by rw [Pack.store_only]
@[simp] theorem Pack.store_qualTimer : (k.store f g).qualTimer = k.qualTimer := by rw [Pack.store_only]
theorem Pack.store_staleTimer (h : k.state.gaugeTimed = true) : (k.store f g).staleTimer = some f.gaugeStale := by
  unfold Pack.store
  simp only [h, if_true]
  split
  · rw [Pack.reallow_only]
  · rfl
end

/-- The record of a SEATED or QUALIFYING pack as the test of a sample finds it (R25, R27, R29). -/
def Pack.tested (k : Pack) (f : PackProfile) (g : GaugeSample) : Pack :=
  { k.store f g with state := .qualifying, qualTimer := if k.state = .seated then some f.qualTimeout else k.qualTimer }

theorem Pack.tested_staleTimer {k : Pack} (h : k.state = .seated ∨ k.state = .qualifying) (f : PackProfile) (g : GaugeSample) :
    (k.tested f g).staleTimer = some f.gaugeStale := k.store_staleTimer f g (by rcases h with h | h <;> rw [h] <;> rfl)

theorem Pack.tested_qualifying {k : Pack} (h : k.state = .qualifying) (f : PackProfile) (g : GaugeSample) :
    k.tested f g = k.store f g := by
  unfold Pack.tested
  rw [if_neg (by simp [h]), ← k.store_qualTimer f g, ← (k.store_state f g).trans h]

theorem Ppc.gaugeSample_tested {p : Ppc} {x : Slot} (h : (p.pack x).state = .seated ∨ (p.pack x).state = .qualifying)
    (g : GaugeSample) (idle : Bool) : ∃ q : Ppc, p.gaugeSample x g idle = q.qualify x g idle
      ∧ q.pack x = (p.pack x).tested p.profile g ∧ q.profile = p.profile := by
  rcases h with h | h
  · refine ⟨_, Ppc.gaugeSample_seated g idle h, ?_, (p.qualifying_switched x g).profile⟩
    unfold Ppc.qualifying Pack.tested
    rw [if_pos h]
    exact Ppc.setPack_select_own _ x nofun nofun
  · refine ⟨_, Ppc.gaugeSample_qualifying g idle h, ?_, (p.stored_switched x g).profile⟩
    rw [Ppc.stored_pack, Pack.tested_qualifying h]

/-! ### The test (R28) -/

section
variable (p : Ppc) (x : Slot) {g : GaugeSample} (idle : Bool)

theorem Ppc.qualify_counts (hg : p.profile.good g = true) (hq : (p.pack x).qual + 1 < p.profile.qualNeeded) :
    p.qualify x g idle = (p.setPack x { p.pack x with qual := (p.pack x).qual + 1 }, []) := by
  unfold Ppc.qualify
  dsimp only
  rw [if_pos hg, if_neg (Nat.not_le.2 hq)]

theorem Ppc.qualify_ready (hg : p.profile.good g = true) (hq : p.profile.qualNeeded ≤ (p.pack x).qual + 1) :
    p.qualify x g idle = ((p.setPack x ({ p.pack x with qual := (p.pack x).qual + 1, state := .standby
                                                        qualTimer := none }.reallow p.profile)).select, [.packReady x]) := by
  unfold Ppc.qualify
  dsimp only
  rw [if_pos hg, if_pos hq]

theorem Ppc.qualify_resets (hg : p.profile.good g = false) (hf : g.fault = false) :
    p.qualify x g idle = (p.setPack x { p.pack x with qual := 0 }, []) := by
  simp [Ppc.qualify, hg, hf]

theorem Ppc.qualify_faults (hf : g.fault = true) :
    p.qualify x g idle = ((p.setPack x { p.pack x with qual := 0 }).enterFault x .gaugeFault idle, [.packFault x]) := by
  have hg : p.profile.good g = false := by simp [PackProfile.good, hf]
  simp [Ppc.qualify, hg, hf]

end

theorem PackProfile.good_iff (f : PackProfile) (g : GaugeSample) : f.good g = true ↔ f.qvMin ≤ g.voltage ∧ g.voltage ≤ f.qvMax
    ∧ f.tLow ≤ g.temperature ∧ g.temperature < f.tCut ∧ g.fault = false := by
  simp [PackProfile.good, and_assoc]

/-- A STANDBY record through selection: all but its switch stays. -/
theorem Pack.onlySelected_standby {k k' : Pack} (h : k.onlySelected k') (hk : k.state = .standby) :
    (k'.state = .standby ∨ k'.state = .online) ∧ k' = { k with state := k'.state, switch := k'.switch } := by
  rcases h with h | ⟨_, h⟩ | ⟨ho, _⟩
  · rw [h]; exact ⟨.inl hk, rfl⟩
  · rw [h]; exact ⟨.inr rfl, rfl⟩
  · rw [hk] at ho; cases ho

section
variable (k : Pack) (c : FaultCause) (idle : Bool)
/-- The lock of a pack that enters FAULT (R31, R42). -/
theorem Pack.faulted_lock : (k.faulted c idle).lock = if idle then false else k.lock := by cases idle <;> rfl
theorem Pack.faulted_lockPending (h : idle = false) : (k.faulted c idle).lockPending = true := by rw [h]; rfl
theorem Pack.faulted_faultCause : (k.faulted c idle).faultCause = some c := by cases idle <;> rfl
theorem Pack.faulted_qual : (k.faulted c idle).qual = k.qual := by cases idle <;> rfl
theorem Pack.faulted_qualTimer : (k.faulted c idle).qualTimer = none := by cases idle <;> rfl
theorem Pack.faulted_staleTimer : (k.faulted c idle).staleTimer = none := by cases idle <;> rfl
end

theorem State.idlePhase_ite (s : State) {α : Type} (a b : α) :
    (if s.idlePhase then a else b) = if s.mtm.phase = .idle then a else b := by
  simp only [State.idlePhase_iff]

section
variable {s : State} {x : Slot} {b : List Byte} (h : (s.ppc.pack x).state = .seated ∨ (s.ppc.pack x).state = .qualifying)
include h

theorem State.gauged_counts (hg : s.ppc.profile.good (.ofPayload b) = true) (hq : (s.ppc.pack x).qual + 1 < s.ppc.profile.qualNeeded) :
    (s.gauged x b).1.pack x = { (s.ppc.pack x).tested s.ppc.profile (.ofPayload b) with qual := (s.ppc.pack x).qual + 1 } := by
  obtain ⟨q, hq', hp, hf⟩ := Ppc.gaugeSample_tested h (.ofPayload b) s.idlePhase
  have hqual : (q.pack x).qual = (s.ppc.pack x).qual := by rw [hp]; exact Pack.store_qual _ _ _
  rw [State.gauged, hq', Ppc.qualify_counts q x _ (by rwa [hf]) (by rwa [hf, hqual]), Ppc.pack_setPack, hqual, hp]

theorem State.gauged_resets (hg : s.ppc.profile.good (.ofPayload b) = false) (hf : (GaugeSample.ofPayload b).fault = false) :
    (s.gauged x b).1.pack x = { (s.ppc.pack x).tested s.ppc.profile (.ofPayload b) with qual := 0 } := by
  obtain ⟨q, hq', hp, hprof⟩ := Ppc.gaugeSample_tested h (.ofPayload b) s.idlePhase
  rw [State.gauged, hq', Ppc.qualify_resets q x _ (by rwa [hprof]) hf, Ppc.pack_setPack, hp]

theorem State.gauged_faults (hf : (GaugeSample.ofPayload b).fault = true) :
    (s.gauged x b).1.pack x
        = { (s.ppc.pack x).tested s.ppc.profile (.ofPayload b) with qual := 0 : Pack }.faulted .gaugeFault s.idlePhase
      ∧ Event.packFault x ∈ (s.gauged x b).2 := by
  obtain ⟨q, hq', hp, _⟩ := Ppc.gaugeSample_tested h (.ofPayload b) s.idlePhase
  rw [State.gauged, hq', Ppc.qualify_faults q x _ hf, Ppc.enterFault_pack, Ppc.pack_setPack, hp]
  exact ⟨rfl, List.mem_singleton_self _⟩

/-- The record that qualifies, but for what selection makes of it (R28, R33). -/
theorem State.gauged_ready (hg : s.ppc.profile.good (.ofPayload b) = true) (hq : s.ppc.profile.qualNeeded ≤ (s.ppc.pack x).qual + 1) :
    (((s.gauged x b).1.pack x).state = .standby ∨ ((s.gauged x b).1.pack x).state = .online)
      ∧ ((s.gauged x b).1.pack x).qualTimer = none
      ∧ ((s.gauged x b).1.pack x).staleTimer = ((s.ppc.pack x).tested s.ppc.profile (.ofPayload b)).staleTimer
      ∧ ((s.gauged x b).1.pack x).allowance = s.ppc.profile.allowance (.ofPayload b)
      ∧ Event.packReady x ∈ (s.gauged x b).2 := by
  obtain ⟨q, hq', hp, hf⟩ := Ppc.gaugeSample_tested h (.ofPayload b) s.idlePhase
  have hqual : (q.pack x).qual = (s.ppc.pack x).qual := by rw [hp]; exact Pack.store_qual _ _ _
  have hsample : (q.pack x).sample = some (.ofPayload b) := by rw [hp]; exact Pack.store_sample _ _ _
  have hstale : (q.pack x).stale = false := by rw [hp]; exact Pack.store_stale _ _ _
  rw [State.gauged, hq', Ppc.qualify_ready q x _ (by rwa [hf]) (by rwa [hf, hqual]), ← hp, ← hf]
  rw [Pack.reallow_sampled (k := { q.pack x with qual := (q.pack x).qual + 1, state := .standby, qualTimer := none }) hsample]
  have hsel := Ppc.select_pack (q.setPack x { q.pack x with
    qual := (q.pack x).qual + 1, state := .standby, qualTimer := none, allowance := q.profile.allowance (.ofPayload b) }) x
  rw [Ppc.pack_setPack] at hsel
  obtain ⟨hst, hrest⟩ := Pack.onlySelected_standby hsel rfl
  rw [if_neg (by simp [hstale])]
  refine ⟨hst, ?_, ?_, ?_, List.mem_singleton_self _⟩ <;> rw [hrest]

end

/-- Settles O22: the record is tested as `Pack.tested` says, and each outcome of the test is a lemma of its own. -/
theorem gaugeSampleQualifies : Obligations.GaugeSampleQualifies := by
  unfold Obligations.GaugeSampleQualifies
  intro p f s i e x htap hlen hx
  obtain ⟨u, hu, hexec⟩ := htap.gauge p
  refine ⟨_, hexec, ?_⟩
  generalize (sampleOf f.body).payload = b
  dsimp only
  rw [hu.gaugeTap_pack, ← PackProfile.good_iff]
  have hstale := Pack.tested_staleTimer hx s.ppc.profile (.ofPayload b)
  refine ⟨?_, fun hg hq => ?_, fun hg hq => ?_, fun hg hf => ?_, fun hf => ?_⟩
  · cases hf : (GaugeSample.ofPayload b).fault with
    | true => rw [(State.gauged_faults hx hf).1, Pack.faulted_staleTimer, if_pos rfl]
    | false =>
      rw [if_neg Bool.false_ne_true, ← hstale]
      cases hg : s.ppc.profile.good (.ofPayload b) with
      | false => rw [State.gauged_resets hx hg hf]
      | true =>
        by_cases hq : s.ppc.profile.qualNeeded ≤ (s.ppc.pack x).qual + 1
        · exact (State.gauged_ready hx hg hq).2.2.1
        · rw [State.gauged_counts hx hg (Nat.not_le.1 hq)]
  · rw [State.gauged_counts hx hg hq]
    exact ⟨rfl, rfl, rfl⟩
  · obtain ⟨hst, htimer, _, hallow, hev⟩ := State.gauged_ready hx hg hq
    exact ⟨hst, htimer, hallow, hu.occurred_gaugeTap hlen hev⟩
  · rw [State.gauged_resets hx (Bool.not_eq_true _ ▸ hg) hf]
    exact ⟨rfl, rfl⟩
  · obtain ⟨hpack, hev⟩ := State.gauged_faults hx hf
    rw [hpack]
    refine ⟨Pack.faulted_state _ _ _, Pack.faulted_faultCause _ _ _, Pack.faulted_qual _ _ _, Pack.faulted_qualTimer _ _ _,
      Pack.faulted_switch _ _ _, ?_, fun hi => Pack.faulted_lockPending _ _ _ ((State.idlePhase_false s).2 hi),
      hu.occurred_gaugeTap hlen hev⟩
    rw [Pack.faulted_lock, State.idlePhase_ite]
    exact congrArg (ite _ _) (Pack.store_lock _ _ _)

end Sys2Proof.Machine
end

section
/-! A gauge sample of a pack that serves or is released (R30, R33, R41, R55): the fault, the new allowance with rotation, and
the confirmation. -/

namespace Sys2Proof.Machine

/-! ### What the end of the event adds -/

section
variable {s u : State} (h : Reached s u) (x : Slot) (b : List Byte)
include h

/-- The end of the event moves no switch and no timer of selection (R56). -/
theorem Reached.gaugeTap_still : (u.gaugeTap x b).ppc.swDc = (s.gauged x b).1.swDc
    ∧ (u.gaugeTap x b).ppc.bridge.switch = (s.gauged x b).1.bridge.switch
    ∧ (u.gaugeTap x b).ppc.settleTimer = (s.gauged x b).1.settleTimer := by
  rw [← h.gauged]
  rcases u.gaugeTap_cases x b with ⟨ht, _⟩ | ht <;> rw [ht]
  · exact ⟨u.ppcSettle_swDc _ _, u.ppcSettle_switch _ _, u.ppcSettle_settleTimer _ _⟩
  · exact ⟨u.ppcEnd_ppc_swDc _ _, u.ppcEnd_ppc_switch _ _, u.ppcEnd_ppc_settleTimer _ _⟩

theorem Reached.gaugeTap_settled (hx : (s.ppc.pack x).state = .online) : (u.gaugeTap x b).ppc.settled := by
  rw [← h.ppc] at hx
  unfold State.gaugeTap
  dsimp only
  rw [if_pos hx]
  exact u.ppcSettle_settled _ _

theorem Reached.alone_gaugeTap (hlen : s.ntu.table.length = 32) : AloneFollows s (u.gaugeTap x b) := by
  have hb : (u.gauged x b).1.bridge = { s.ppc.bridge with switch := (u.gauged x b).1.bridge.switch } := by
    rw [h.gauged]; exact (Ppc.gaugeSample_switched _ _ _ _).bridge
  have hps : Event.bridgeAlone ∉ (u.gauged x b).2 := fun hm => by simpa [gaugePulses] using u.gauged_pulses x b _ hm
  rcases u.gaugeTap_cases x b with ⟨ht, _⟩ | ht <;> rw [ht]
  · exact h.alone_ppcSettle hlen hb hps
  · exact h.alone_ppcEnd hlen hb hps

end

/-! ### The fault (R30, R31) -/

/-- The first cause that holds, where one does (R30). -/
theorem PackProfile.faultOf_some {f : PackProfile} {g : GaugeSample} (h : g.fault = true ∨ f.tCut ≤ g.temperature ∨ g.voltage < f.vCut) :
    f.faultOf g = some (if g.fault then .gaugeFault else if f.tCut ≤ g.temperature then .overtemp else .undervolt) := by
  unfold PackProfile.faultOf
  cases hf : g.fault with
  | true => rfl
  | false =>
    by_cases ht : f.tCut ≤ g.temperature
    · simp [ht]
    · have hv : g.voltage < f.vCut := (h.resolve_left (by simp [hf])).resolve_left ht
      simp [ht, hv]

theorem PackProfile.faultOf_none {f : PackProfile} {g : GaugeSample} (hf : g.fault = false) (ht : g.temperature < f.tCut)
    (hv : f.vCut ≤ g.voltage) : f.faultOf g = none := by
  simp [PackProfile.faultOf, hf, Int.not_le.2 ht, Nat.not_lt.2 hv]

theorem Ppc.stored_other (p : Ppc) (x : Slot) (g : GaugeSample) : (p.stored x g).pack (otherSlot x) = p.pack (otherSlot x) :=
  Ppc.pack_setPack_other _ _ _

section
variable {s : State} {x : Slot} {b : List Byte}

theorem State.gauged_faulted (h : (s.ppc.pack x).state = .standby ∨ (s.ppc.pack x).state = .online) {c : FaultCause}
    (hc : s.ppc.profile.faultOf (.ofPayload b) = some c) : (s.gauged x b).1 = (s.ppc.stored x (.ofPayload b)).enterFault x c s.idlePhase
      ∧ (s.gauged x b).1.pack x = ((s.ppc.pack x).store s.ppc.profile (.ofPayload b)).faulted c s.idlePhase
      ∧ Event.packFault x ∈ (s.gauged x b).2 := by
  rw [State.gauged, Ppc.gaugeSample_faults _ _ h hc]
  refine ⟨rfl, ?_, List.mem_singleton_self _⟩
  rw [Ppc.enterFault_pack, Ppc.stored_pack]

/-- The handover of an ONLINE pack that faults (R31, R35). -/
theorem State.gauged_handover (hs : s.ppc.safe) (h : (s.ppc.pack x).state = .online) {c : FaultCause}
    (hc : s.ppc.profile.faultOf (.ofPayload b) = some c) : (s.gauged x b).1.settleTimer = some 20
      ∧ (s.ppc.bridge.fitted = true → (s.gauged x b).1.bridge.switch = true)
      ∧ (s.gauged x b).1.pack (otherSlot x) = if (s.ppc.pack (otherSlot x)).state = .standby
          then { s.ppc.pack (otherSlot x) with state := .online, switch := true } else s.ppc.pack (otherSlot x) := by
  rw [(State.gauged_faulted (.inr h) hc).1, Ppc.enterFault_eq]
  have hst := s.ppc.stored_switched x (.ofPayload b)
  have hon : ((s.ppc.stored x (.ofPayload b)).pack x).state = .online := by rw [Ppc.stored_pack, Pack.store_state, h]
  have hd : (s.ppc.stored x (.ofPayload b)).dcinOk = false := hst.dcinOk.trans (hs.steady.ordered.online h).1
  obtain ⟨hbr, htimer, _⟩ := Ppc.leave_handover (k := ((s.ppc.stored x (.ofPayload b)).pack x).faulted c s.idlePhase) hon hd
    (by simp) (by simp)
  refine ⟨htimer, fun hf => hbr (hst.bridgeFitted.trans hf), ?_⟩
  rw [Ppc.leave_online hon hd (by simp) (by simp), Ppc.transferFrom_other _ _ _ (by simp), Ppc.stored_other]
  simp [hd]

/-! ### The allowance and the rotation (R33, R55) -/

theorem Ppc.allowed_pack (p : Ppc) (x : Slot) (g : GaugeSample) :
    (p.allowed x g).pack x = { (p.pack x).store p.profile g with allowance := p.profile.allowance g } := by
  unfold Ppc.allowed
  rw [Ppc.pack_setPack, Pack.reallow_sampled (Pack.store_sample _ _ _), if_neg (by simp)]

theorem Ppc.allowed_other (p : Ppc) (x : Slot) (g : GaugeSample) : (p.allowed x g).pack (otherSlot x) = p.pack (otherSlot x) := by
  unfold Ppc.allowed
  rw [Ppc.pack_setPack_other, Ppc.stored_other]

theorem Ppc.allowed_still (p : Ppc) (x : Slot) (g : GaugeSample) : (p.allowed x g).swDc = p.swDc
    ∧ (p.allowed x g).bridge.switch = p.bridge.switch ∧ (p.allowed x g).settleTimer = p.settleTimer := by
  cases x <;> exact ⟨rfl, rfl, rfl⟩

/-- The sample of the ONLINE pack hands the load to the STANDBY pack with more energy (R33 step 2). -/
def Ppc.Rotates (p : Ppc) (x : Slot) (g : GaugeSample) : Prop :=
  g.energy < p.profile.rotateMwh ∧ (p.pack (otherSlot x)).state = .standby
    ∧ ∃ o, (p.pack (otherSlot x)).sample = some o ∧ g.energy + p.profile.rotateGap < o.energy

theorem Ppc.allowed_rotates (p : Ppc) (x : Slot) (g : GaugeSample) : (p.allowed x g).rotates x = true ↔ p.Rotates x g := by
  have hown : ((p.allowed x g).pack x).energy = g.energy := by
    rw [Ppc.allowed_pack]
    exact congrArg (fun o : Option GaugeSample => (o.map (·.energy)).getD 0) (Pack.store_sample _ _ _)
  unfold Ppc.rotates Ppc.Rotates
  rw [hown, Ppc.allowed_other, (p.allowed_switched x g).profile]
  cases hs : (p.pack (otherSlot x)).sample <;> simp [Pack.energy, hs, and_assoc]

/-- Selection where a pack is ONLINE in order: the pack is kept, or rotated out (R33 step 2). -/
theorem Ppc.Ordered.select_online {p : Ppc} (h : p.Ordered) (hx : (p.pack x).state = .online) :
    p.select = if p.rotates x
      then (p.closeBridge.setPack x { p.pack x with state := .standby, switch := false }).endTransfer (some (otherSlot x)) else p := by
  unfold Ppc.select
  simp [(h.online hx).1, h.onlineSlot hx]

/-- The rotation of a safe PPC (R33, R35). -/
theorem Ppc.rotated {p : Ppc} (hs : p.safe) (hx : (p.pack x).state = .online) {g : GaugeSample} (hr : p.Rotates x g) :
    ((p.allowed x g).select.pack x).state = .standby ∧ ((p.allowed x g).select.pack x).switch = false
      ∧ (p.allowed x g).select.pack (otherSlot x) = { p.pack (otherSlot x) with state := .online, switch := true }
      ∧ (p.allowed x g).select.settleTimer = some 20
      ∧ (p.bridge.fitted = true → (p.allowed x g).select.bridge.switch = true) := by
  have hon : ((p.allowed x g).pack x).state = .online := by rw [Ppc.allowed_pack]; exact (Pack.store_state _ _ _).trans hx
  rw [(Ppc.allowed_steady hs.steady x g).ordered.select_online hon, if_pos ((p.allowed_rotates x g).2 hr)]
  have hx' : x ≠ otherSlot x := (otherSlot_ne x).symm
  refine ⟨?_, ?_, ?_, by rw [Ppc.endTransfer_settleTimer]; rfl, fun hf => ?_⟩
  · rw [Ppc.endTransfer_some_pack_ne _ _ _ hx', Ppc.pack_setPack]
  · rw [Ppc.endTransfer_some_pack_ne _ _ _ hx', Ppc.pack_setPack]
  · rw [Ppc.endTransfer_some_pack, Ppc.pack_setPack_other, Ppc.closeBridge_pack, Ppc.allowed_other]
  · rw [Ppc.endTransfer_bridge, Ppc.setPack_bridge]
    refine Ppc.closeBridge_closed ?_
    rw [(Ppc.closeBridge_switched _).bridgeFitted, (p.allowed_switched x g).bridgeFitted, hf]

theorem Ppc.kept {p : Ppc} (hs : p.safe) (hx : (p.pack x).state = .online) {g : GaugeSample} (hr : ¬p.Rotates x g) :
    (p.allowed x g).select = p.allowed x g := by
  have hon : ((p.allowed x g).pack x).state = .online := by rw [Ppc.allowed_pack]; exact (Pack.store_state _ _ _).trans hx
  rw [(Ppc.allowed_steady hs.steady x g).ordered.select_online hon, if_neg (fun h => hr ((p.allowed_rotates x g).1 h))]

/-- Without a fault condition the records are `Ppc.allowed`, with selection for an ONLINE pack (R30, R33). -/
theorem State.gauged_allowed (h : (s.ppc.pack x).state = .standby ∨ (s.ppc.pack x).state = .online)
    (hc : s.ppc.profile.faultOf (.ofPayload b) = none) :
    ((s.gauged x b).1.pack x).allowance = s.ppc.profile.allowance (.ofPayload b) := by
  have hallow : ((s.ppc.allowed x (.ofPayload b)).pack x).allowance = s.ppc.profile.allowance (.ofPayload b) := by
    rw [Ppc.allowed_pack]
  rcases h with h | h
  · rw [State.gauged, Ppc.gaugeSample_standby _ _ h hc, hallow]
  · rw [State.gauged, Ppc.gaugeSample_online _ _ h hc, ← hallow]
    rcases (s.ppc.allowed x (.ofPayload b)).select_pack x with he | ⟨_, he⟩ | ⟨_, he⟩ <;> rw [he]

theorem State.gauged_unmoved (hc : s.ppc.profile.faultOf (.ofPayload b) = none)
    (h : (s.ppc.pack x).state = .standby ∨ (s.ppc.pack x).state = .online ∧ s.ppc.safe ∧ ¬s.ppc.Rotates x (.ofPayload b)) :
    (s.gauged x b).1 = s.ppc.allowed x (.ofPayload b) := by
  rcases h with h | ⟨h, hs, hr⟩
  · rw [State.gauged, Ppc.gaugeSample_standby _ _ h hc]
  · rw [State.gauged, Ppc.gaugeSample_online _ _ h hc]
    exact Ppc.kept hs h hr

/-! ### The confirmation (R41) -/

theorem State.gauged_confirms (h : (s.ppc.pack x).state = .releasing) (hw : (s.ppc.pack x).lockPending = false)
    (hc : (GaugeSample.ofPayload b).current ≤ s.ppc.profile.releaseMa) :
    (s.gauged x b).1.pack x = (if s.idlePhase then ((s.ppc.pack x).store s.ppc.profile (.ofPayload b)).confirmed s.ppc.profile
        else { (s.ppc.pack x).store s.ppc.profile (.ofPayload b) with confirmTimer := none, lockPending := true })
      ∧ (s.gauged x b).2 = if s.idlePhase then [.swapReady] else [] := by
  rw [State.gauged, Ppc.gaugeSample_confirms _ _ h hw hc, Ppc.confirm_pack, Ppc.confirm_pulses, Ppc.stored_pack,
    (s.ppc.stored_switched x _).profile]
  exact ⟨rfl, rfl⟩

theorem State.gauged_unconfirmed (h : (s.ppc.pack x).state = .releasing)
    (hc : (s.ppc.profile.releaseMa : Int) < (GaugeSample.ofPayload b).current) :
    (s.gauged x b).1.pack x = (s.ppc.pack x).store s.ppc.profile (.ofPayload b) := by
  rw [State.gauged, Ppc.gaugeSample_stored _ _ (.inl ⟨h, .inr hc⟩), Ppc.stored_pack]

end

/-- Settles O23: the outcomes of a sample of a pack that serves or is released, each a lemma about `State.gauged`. -/
theorem gaugeSampleFaultsOrConfirms : Obligations.GaugeSampleFaultsOrConfirms := by
  unfold Obligations.GaugeSampleFaultsOrConfirms
  intro p f s i e x htap hlen
  obtain ⟨u, hu, hexec⟩ := htap.gauge p
  refine ⟨_, hexec, ?_⟩
  generalize (sampleOf f.body).payload = b
  obtain ⟨hdc, hsw, htimer⟩ := hu.gaugeTap_still x b
  dsimp only
  rw [hu.gaugeTap_pack, hu.gaugeTap_pack, hdc, hsw, htimer]
  refine ⟨fun hx hbad => ?_, fun hx hf ht hv => ?_, fun hx => hu.gaugeTap_settled x b hx, hu.alone_gaugeTap x b hlen,
    fun hx hw hc => ?_, fun hx hc => ?_⟩
  · have hc := PackProfile.faultOf_some hbad
    obtain ⟨_, hpack, hev⟩ := State.gauged_faulted hx hc
    rw [hpack]
    refine ⟨Pack.faulted_state _ _ _, Pack.faulted_switch _ _ _, Pack.faulted_staleTimer _ _ _, Pack.faulted_faultCause _ _ _, ?_,
      fun hi => Pack.faulted_lockPending _ _ _ ((State.idlePhase_false s).2 hi), hu.occurred_gaugeTap hlen hev,
      fun hsafe hon => State.gauged_handover hsafe hon hc⟩
    rw [Pack.faulted_lock, State.idlePhase_ite, Pack.store_lock]
  · have hc := PackProfile.faultOf_none hf ht hv
    refine ⟨State.gauged_allowed hx hc, fun hon hsafe hr => ?_, fun hkeep => ?_⟩
    · have hg : (s.gauged x b).1 = (s.ppc.allowed x (.ofPayload b)).select := by
        rw [State.gauged, Ppc.gaugeSample_online _ _ hon hc]
      rw [hg]
      exact Ppc.rotated hsafe hon hr
    · rw [State.gauged_unmoved hc (hx.imp_right fun hon => ⟨hon, hkeep.resolve_left (by simp [hon])⟩), Ppc.allowed_pack, Ppc.allowed_other]
      exact ⟨Pack.store_state _ _ _, Pack.store_switch _ _ _, rfl, Ppc.allowed_still _ _ _⟩
  · obtain ⟨hpack, hev⟩ := State.gauged_confirms hx hw hc
    rw [hpack]
    refine ⟨by split <;> rfl, fun hi => ?_, fun hi => ?_⟩
    · rw [← State.idlePhase_iff] at hi
      rw [if_pos hi]
      refine ⟨rfl, rfl, rfl, rfl, hu.occurred_gaugeTap hlen ?_⟩
      rw [hev, if_pos hi]
      exact List.mem_singleton_self _
    · rw [← State.idlePhase_false] at hi
      rw [hi, if_neg Bool.false_ne_true]
      exact ⟨(Pack.store_state _ _ _).trans hx, rfl, Pack.store_lock _ _ _⟩
  · rw [State.gauged_unconfirmed hx hc]
    exact ⟨(Pack.store_state _ _ _).trans hx, Pack.store_confirmTimer _ _ _, Pack.store_lock _ _ _⟩

end Sys2Proof.Machine
end

section
/-! What keeps the power budget and its ceiling (R56, R57, R59, R62, R96, R97): an event either ends with a settlement, which
forms the budget anew and delivers it, or moves nothing that the budget or the ceiling rests on. -/

namespace Sys2Proof.Machine

/-! ### LMC under its ceiling -/

/-- C_power, T and O stand in `m'` as in `m`. -/
structure Lmc.SameLight (m m' : Lmc) : Prop where
  cPower : m'.cPower = m.cPower
  target : m'.target = m.target
  out : m'.out = m.out

/-- An event of LMC leaves C_power, and T and O under it where they stood under it (R96 to R99). -/
structure Lmc.StaysUnder (m m' : Lmc) : Prop where
  cPower : m'.cPower = m.cPower
  target : m.target ≤ m.cPower → m'.target ≤ m.cPower
  out : m.target ≤ m.cPower → m.out ≤ m.cPower → m'.out ≤ m.cPower

theorem Lmc.StaysUnder.of_same {m m' : Lmc} (h : m.SameLight m') : m.StaysUnder m' :=
  ⟨h.cPower, fun ht => h.target ▸ ht, fun _ ho => h.out ▸ ho⟩

theorem Lmc.StaysUnder.refl (m : Lmc) : m.StaysUnder m := .of_same ⟨rfl, rfl, rfl⟩

/-- A recomputation puts T under C_power and moves no O (R96). -/
theorem Lmc.StaysUnder.recompute {m m' : Lmc} (hc : m'.cPower = m.cPower) (ho : m'.out = m.out) : m.StaysUnder m'.recompute where
  cPower := m'.recompute_cPower.trans hc
  target _ := hc ▸ m'.recompute_target_le
  out _ h := by rwa [Lmc.recompute_out, ho]

/-- A step of O toward T stays under C_power (R99). -/
theorem Lmc.stepOut_le {m : Lmc} (ht : m.target ≤ m.cPower) (ho : m.out ≤ m.cPower) : m.stepOut ≤ m.cPower := by
  unfold Lmc.stepOut
  repeat' split
  all_goals omega

theorem Lmc.revalidated_sameLight (m : Lmc) (r : LightRole) (x : LightRecord) : m.SameLight (m.setRole r x).revalidate := by
  rw [Lmc.revalidate_only, Lmc.setRole_only]
  exact ⟨rfl, rfl, rfl⟩

/-- A role whose liveness changes hands on a change of mode alone (R77, R79, R81). -/
theorem Lmc.revalidated_staysUnder (m : Lmc) (r : LightRole) (x : LightRecord) :
    m.StaysUnder (if (m.setRole r x).revalidate.mode = m.mode then (m.setRole r x).revalidate
      else (m.setRole r x).revalidate.recompute) := by
  have h := m.revalidated_sameLight r x
  split
  · exact .of_same h
  · exact .recompute h.cPower h.out

theorem Lmc.storeSample_staysUnder (m : Lmc) (r : LightRole) (count range : Nat) :
    m.StaysUnder (m.storeSample r count range) := by
  refine .recompute ?_ ?_ <;> rw [Lmc.revalidate_only, Lmc.measure_only, Lmc.setRole_only]

theorem State.lightSample_staysUnder (s : State) (r : LightRole) (b : List Byte) : s.lmc.StaysUnder (s.lightSample r b).lmc := by
  rw [State.lightSample_lmc]
  split
  · exact s.lmc.revalidated_staysUnder r _
  · exact s.lmc.storeSample_staysUnder r _ _

theorem Lmc.writePoint_staysUnder (m : Lmc) (j : Nat) (pt : CurvePoint) : m.StaysUnder (m.writePoint j pt) := by
  unfold Lmc.writePoint
  dsimp only
  split
  · exact .recompute rfl rfl
  · split
    · exact .recompute rfl rfl
    · exact .of_same ⟨rfl, rfl, rfl⟩

/-- A change of regime recomputes T, and only ever lowers O (R98). -/
theorem State.deliverRegime_staysUnder (s : State) (r : Regime) : s.lmc.StaysUnder (s.deliverRegime r).lmc := by
  have h : s.lmc.StaysUnder { s.lmc with regime := r }.recompute := .recompute rfl rfl
  rw [State.deliverRegime_lmc]
  refine ⟨h.cPower, h.target, fun _ ho => ?_⟩
  dsimp only
  split
  · omega
  · exact ho

/-! ### A PPC that is not settled anew -/

/-- Nothing was settled between `p` and `q`: the budget, exhaustion, the record of carrying alone and the settings that a
settlement reads are the same. -/
structure Ppc.Unsettled (p q : Ppc) : Prop where
  budget : q.budget = p.budget
  exhausted : q.bridge.exhausted = p.bridge.exhausted
  alone : q.bridge.alone = p.bridge.alone
  power : q.power = p.power
  bridgeSet : q.bridgeSet = p.bridgeSet
  pBlMax : q.pBlMax = p.pBlMax

theorem Ppc.Switched.unsettled {p q : Ppc} (h : p.Switched q) : p.Unsettled q where
  budget := h.budget
  exhausted := by rw [h.bridge]
  alone := h.alone
  power := by rw [h.only]
  bridgeSet := by rw [h.only]
  pBlMax := by rw [h.only]

/-- The allowance of a pack that was ONLINE is the same. -/
def Ppc.SamePay (p q : Ppc) : Prop := ∀ x, (p.pack x).state = .online → (q.pack x).allowance = (p.pack x).allowance

/-- Where no switch moved and the ONLINE pack has its allowance, the budget is still that of the switches (R56, R57). -/
theorem Ppc.Unsettled.settled {p q : Ppc} (h : p.Unsettled q) (hset : p.settled) (hp : p.Ordered) (hq : q.Ordered)
    (hsw : q.switches = p.switches) (hpay : p.SamePay q) : q.settled := by
  obtain ⟨hpAv, haBl, hc⟩ := hset
  obtain ⟨hd, ha, hb, hbr⟩ : q.swDc = p.swDc ∧ q.packA.switch = p.packA.switch ∧ q.packB.switch = p.packB.switch
      ∧ q.bridge.switch = p.bridge.switch := by simpa [Ppc.switches] using hsw
  have hswitch : ∀ x, (q.pack x).switch = (p.pack x).switch := Slot.forall.2 ⟨ha, hb⟩
  have hon : ∀ x, (q.pack x).state = .online ↔ (p.pack x).state = .online := fun x => by
    rw [← hq.state_of_closed, ← hp.state_of_closed, hswitch]
  have hA : q.packA.state = .online ↔ p.packA.state = .online := hon .a
  have hB : q.packB.state = .online ↔ p.packB.state = .online := hon .b
  have honline : (if q.packA.state = .online then q.packA.allowance
        else if q.packB.state = .online then q.packB.allowance else 0)
      = if p.packA.state = .online then p.packA.allowance else if p.packB.state = .online then p.packB.allowance else 0 := by
    simp only [hA, hB]
    split
    · next hon => exact hpay .a hon
    · split
      · next hon => exact hpay .b hon
      · rfl
  unfold Ppc.settled
  rw [honline, h.budget, h.exhausted, h.power, h.bridgeSet, h.pBlMax, hd, ha, hb, hbr]
  exact ⟨hpAv, haBl, hc⟩

/-! ### What keeps the budget -/

/-- From `s` to `t` PPC stays safe, the output under its ceiling, and, in a safe state, the budget settled. -/
structure KeepsBudget (s t : State) : Prop where
  safe : s.ppc.safe → t.ppc.safe
  ceiling : s.underCeiling → t.underCeiling
  settled : s.ppc.safe → s.ppc.settled → t.ppc.settled

theorem KeepsBudget.refl (s : State) : KeepsBudget s s := ⟨id, id, fun _ h => h⟩

theorem KeepsBudget.trans {s u t : State} (h1 : KeepsBudget s u) (h2 : KeepsBudget u t) : KeepsBudget s t :=
  ⟨fun h => h2.safe (h1.safe h), fun h => h2.ceiling (h1.ceiling h), fun h hs => h2.settled (h1.safe h) (h1.settled h hs)⟩

/-- No settlement: no switch moved, and LMC stayed under its ceiling. -/
theorem KeepsBudget.of_unsettled {s t : State} (hu : s.ppc.Unsettled t.ppc) (hl : s.lmc.StaysUnder t.lmc)
    (hsw : t.ppc.switches = s.ppc.switches) (hst : s.ppc.safe → t.ppc.Steady) (hpay : s.ppc.safe → s.ppc.SamePay t.ppc) :
    KeepsBudget s t where
  safe h := (Ppc.safe_iff _).2 ⟨hst h, by rw [hu.alone, h.inStep, Ppc.carriesAlone_congr hsw]⟩
  ceiling h := by
    obtain ⟨hc, hm, hle, ht, ho, hx⟩ := h
    unfold State.underCeiling
    rw [hu.budget, hu.exhausted, hl.cPower]
    exact ⟨hc, hm, hle, hl.target ht, hl.out ht ho, hx⟩
  settled h hs := hu.settled hs h.steady.ordered (hst h).ordered hsw (hpay h)

/-- An event of LMC, or a change of regime: PPC at most copies the regime. -/
theorem KeepsBudget.of_light {s t : State} (hp : t.ppc = { s.ppc with regime := t.ppc.regime }) (hl : s.lmc.StaysUnder t.lmc) :
    KeepsBudget s t :=
  .of_unsettled (by rw [hp]; exact ⟨rfl, rfl, rfl, rfl, rfl, rfl⟩) hl (by rw [hp]; rfl)
    (fun h => h.steady.settings (by rw [hp])) fun _ x _ => by rw [hp]; cases x <;> rfl

/-- An event that reaches neither PPC nor LMC. -/
theorem KeepsBudget.of_same {s t : State} (hp : t.ppc = s.ppc) (hl : t.lmc = s.lmc) : KeepsBudget s t :=
  .of_light (by rw [hp]) (by rw [hl]; exact .refl _)

theorem KeepsBudget.lmcEnd {s : State} {m : Lmc} (h : s.lmc.StaysUnder m) (ps : List Event) : KeepsBudget s (s.lmcEnd m ps) :=
  .of_light (by rw [State.lmcEnd_ppc]) (by rwa [State.lmcEnd_lmc])

theorem KeepsBudget.deliverRegime (s : State) (r : Regime) : KeepsBudget s (s.deliverRegime r) :=
  .of_light (by rw [State.deliverRegime_ppc]) (s.deliverRegime_staysUnder r)

/-- A settlement leaves O and T under the C_power that it delivers, which is at most 4095 and 0 while exhausted (R57, R59, R62,
R97). -/
theorem State.ppcSettle_underCeiling {s : State} {p : Ppc} (h : s.underCeiling)
    (hd : p.budget.delivered = s.ppc.budget.delivered) (ps : List Event) : (s.ppcSettle p ps).underCeiling := by
  obtain ⟨_, hm, hle, ht, ho, _⟩ := h
  obtain ⟨_, _, hc⟩ := Ppc.settle_settled s.ppc p s.lmc.out
  have hx : (s.ppc.settle p s.lmc.out).bridge.exhausted = true → (s.ppc.settle p s.lmc.out).budget.cPower = 0 := fun hx => by
    rw [hc, if_pos hx]
  have h4095 := Ppc.settle_cPower_le s.ppc p s.lmc.out
  unfold State.underCeiling
  rw [State.ppcSettle_ppc, State.ppcSettle_lmc]
  dsimp only
  split
  · next heq =>
    rw [heq, hd, ← hm]
    exact ⟨rfl, rfl, hle, ht, ho, fun he => by rw [← hx he, heq, hd, ← hm]⟩
  · refine ⟨rfl, Lmc.recompute_cPower _, ?_, ?_, ?_, hx⟩
    · rw [Lmc.recompute_cPower]; exact h4095
    · rw [Lmc.recompute_cPower]
      exact Lmc.recompute_target_le { s.lmc with cPower := (s.ppc.settle p s.lmc.out).budget.cPower }
    · rw [Lmc.recompute_cPower]; exact Nat.min_le_right _ _

section
variable {s : State} {p : Ppc} (hst : s.ppc.safe → p.Steady)
include hst

/-- An event that is settled. -/
theorem KeepsBudget.ppcSettle (hd : p.budget.delivered = s.ppc.budget.delivered) (ps : List Event) :
    KeepsBudget s (s.ppcSettle p ps) :=
  ⟨fun h => s.ppcSettle_safe (hst h) ps, fun h => State.ppcSettle_underCeiling h hd ps, fun _ _ => s.ppcSettle_settled p ps⟩

/-- An event that moves no switch and ends without a settlement. -/
theorem KeepsBudget.ppcQuiet (hu : s.ppc.Unsettled p) (hsw : p.switches = s.ppc.switches)
    (hpay : s.ppc.safe → s.ppc.SamePay p) (ps : List Event) : KeepsBudget s (s.ppcQuiet p ps) := by
  refine .of_unsettled ?_ (by rw [State.ppcQuiet_lmc]; exact .refl _) ?_ ?_ ?_ <;> rwa [State.ppcQuiet_ppc]

/-- An event that is settled where it moved a switch (R56). -/
theorem KeepsBudget.ppcEnd (hu : s.ppc.Unsettled p) (hpay : s.ppc.safe → s.ppc.SamePay p) (ps : List Event) :
    KeepsBudget s (s.ppcEnd p ps) := by
  unfold State.ppcEnd
  split
  · next hsw => exact .ppcQuiet hst hu hsw hpay ps
  · exact .ppcSettle hst (by rw [hu.budget]) ps

end

end Sys2Proof.Machine
end

section
/-! The events of PPC, LMC and MTM keep the power budget (R27 to R44, R50, R54, R59, R79, R101, R117). -/

namespace Sys2Proof.Machine

/-! ### The pay of the ONLINE pack -/

theorem Pack.onlySelected_allowance {k k' : Pack} (h : k.onlySelected k') : k'.allowance = k.allowance := by
  rcases h with rfl | ⟨_, rfl⟩ | ⟨_, rfl⟩ <;> rfl

@[simp] theorem Pack.completeRelease_allowance (k : Pack) (f : PackProfile) : (k.completeRelease f).allowance = k.allowance := by
  unfold Pack.completeRelease
  repeat' split
  all_goals rfl

/-- An event of slot `x` that leaves the other slot to selection, and the allowance of slot `x` where that pack is ONLINE. -/
theorem Ppc.SamePay.of_slot {p q : Ppc} {x : Slot} (ho : (p.pack (otherSlot x)).onlySelected (q.pack (otherSlot x)))
    (hx : (p.pack x).state = .online → (q.pack x).allowance = (p.pack x).allowance) : p.SamePay q := fun y hy => by
  rcases Slot.eq_or_other x y with rfl | rfl
  · exact hx hy
  · exact Pack.onlySelected_allowance ho

/-- An event of a pack that is not ONLINE. -/
theorem Ppc.SamePay.of_offline {p q : Ppc} {x : Slot} (ho : (p.pack (otherSlot x)).onlySelected (q.pack (otherSlot x)))
    (hx : (p.pack x).state ≠ .online) : p.SamePay q := .of_slot ho fun h => absurd h hx

theorem Ppc.SamePay.of_pack {p q : Ppc} (h : ∀ x, q.pack x = p.pack x) : p.SamePay q := fun x _ => by rw [h]

theorem Ppc.release_allowance (p : Ppc) (x : Slot) (idle : Bool) (r : Regime) :
    ((p.release x idle r).ppc.pack x).allowance = (p.pack x).allowance := by
  rcases p.release_cases x idle r with ⟨_, hr⟩ | ⟨_, why, hr⟩ | ⟨_, hr⟩ | ⟨_, hr⟩ <;> rw [hr]
  · rw [Ppc.refuseRelease, Ppc.pack_setPack]
  · rw [p.setPack_select_own x (k := (p.pack x).letGo p.profile) nofun nofun]
    rfl
  · rw [p.enterReleasing_pack x]
    rfl

theorem Ppc.release_samePay (p : Ppc) (x : Slot) (idle : Bool) (r : Regime) : p.SamePay (p.release x idle r).ppc :=
  .of_slot (p.release_other x idle r) fun _ => p.release_allowance x idle r

theorem Ppc.braceOff_samePay (p : Ppc) : p.SamePay p.braceOff := fun x _ => by
  rw [Pack.onlySelected_allowance (p.braceOff_pack x), Pack.completeRelease_allowance]

/-! ### The events of PPC -/

theorem Ppc.braceOn_unsettled (p : Ppc) : p.Unsettled p.braceOn := by
  rw [p.braceOn_only]
  exact ⟨rfl, rfl, rfl, rfl, rfl, rfl⟩

theorem Ppc.braceOn_pack (p : Ppc) (x : Slot) : p.braceOn.pack x = p.pack x := by
  rw [p.braceOn_only]
  cases x <;> rfl

theorem Ppc.braceOff_unsettled (p : Ppc) : p.Unsettled p.braceOff := by
  have hr : p.Unsettled p.released := by
    rw [p.released_only]
    exact ⟨rfl, rfl, rfl, rfl, rfl, rfl⟩
  rw [Ppc.braceOff_eq]
  split
  · have hs := (Ppc.select_switched p.released).unsettled
    exact ⟨hs.budget.trans hr.budget, hs.exhausted.trans hr.exhausted, hs.alone.trans hr.alone, hs.power.trans hr.power,
      hs.bridgeSet.trans hr.bridgeSet, hs.pBlMax.trans hr.pBlMax⟩
  · exact hr

theorem Ppc.setPack_switches {p : Ppc} {x : Slot} {k : Pack} (h : k.switch = (p.pack x).switch) :
    (p.setPack x k).switches = p.switches := by
  cases x <;> simpa [Ppc.switches, Ppc.setPack, Ppc.pack] using h

theorem Ppc.gaugeStale_switches (p : Ppc) (x : Slot) : (p.gaugeStale x).switches = p.switches :=
  Ppc.setPack_switches (Pack.reallow_switch _ _)

theorem KeepsBudget.gaugeTap (s : State) (x : Slot) (b : List Byte) : KeepsBudget s (s.gaugeTap x b) := by
  have hst : s.ppc.safe → (s.gauged x b).1.Steady := fun h => Ppc.gaugeSample_steady h.steady x _ _
  have hsw : s.ppc.Switched (s.gauged x b).1 := Ppc.gaugeSample_switched _ _ _ _
  by_cases hon : (s.ppc.pack x).state = .online
  · have ht : s.gaugeTap x b = s.ppcSettle (s.gauged x b).1 (s.gauged x b).2 := if_pos hon
    rw [ht]
    exact .ppcSettle hst (by rw [hsw.budget]) _
  · have ht : s.gaugeTap x b = s.ppcEnd (s.gauged x b).1 (s.gauged x b).2 := if_neg hon
    rw [ht]
    exact .ppcEnd hst hsw.unsettled (fun h => .of_offline ((s.gauged_other x b).2 (h.switch_iff _)) hon) _

/-- A sample never ends exhaustion (R50, R59). -/
theorem Ppc.bridgeSample_exhausted (p : Ppc) (g : BridgeSample) (out : Nat) (h : p.bridge.exhausted = true) :
    (p.bridgeSample g out).bridge.exhausted = true := by
  rw [Ppc.bridgeSample_stored p g out (.inr h)]
  exact h

theorem KeepsBudget.bridgeTap (s : State) (b : List Byte) : KeepsBudget s (s.bridgeTap b) := by
  have hst : s.ppc.safe → (s.ppc.bridgeSample (BridgeSample.ofPayload b) s.lmc.out).Steady := fun h =>
    Ppc.bridgeSample_steady h.steady _ _
  have honly := s.ppc.bridgeSample_only (BridgeSample.ofPayload b) s.lmc.out
  have hpack : ∀ x, (s.ppc.bridgeSample (BridgeSample.ofPayload b) s.lmc.out).pack x = s.ppc.pack x := fun x => by
    rw [honly]; cases x <;> rfl
  rcases s.bridgeTap_cases b with ⟨_, ht⟩ | ⟨_, hx, ht⟩ | ⟨_, _, _, ht⟩ <;> rw [ht]
  · exact .refl s
  · have hexhausted : (s.ppc.bridgeSample (BridgeSample.ofPayload b) s.lmc.out).bridge.exhausted = s.ppc.bridge.exhausted :=
      Bool.eq_iff_iff.2 ⟨hx, s.ppc.bridgeSample_exhausted _ _⟩
    exact .ppcQuiet hst ⟨by rw [honly], hexhausted, s.ppc.bridgeSample_alone _ _, by rw [honly], by rw [honly], by rw [honly]⟩
      (s.ppc.bridgeSample_switches _ _) (fun _ => .of_pack hpack) _
  · exact .ppcSettle (fun h => (hst h).ordered.select) (by rw [Ppc.select_budget, honly]) _

theorem KeepsBudget.braceOn (s : State) : KeepsBudget s s.braceOn :=
  .ppcEnd (fun h => Ppc.braceOn_steady h.steady) s.ppc.braceOn_unsettled (fun _ => .of_pack s.ppc.braceOn_pack) _

theorem KeepsBudget.braceOff (s : State) : KeepsBudget s s.braceOff :=
  .ppcEnd (fun h => Ppc.braceOff_steady h.steady) s.ppc.braceOff_unsettled (fun _ => s.ppc.braceOff_samePay) _

theorem Ppc.bridgeFit_budget (p : Ppc) (level : Bool) : (p.bridgeFit level).budget = p.budget := by
  unfold Ppc.bridgeFit
  dsimp only
  split
  · split
    · rw [Ppc.closeBridge_budget]
    · rfl
  · split
    · rw [Ppc.select_budget]
    · rfl

theorem KeepsBudget.deliverPBlMax (s : State) (v : Nat) : KeepsBudget s (s.deliverPBlMax v) := by
  unfold State.deliverPBlMax
  split
  · exact .refl s
  · exact .ppcSettle (p := { s.ppc with pBlMax := v }) (fun h => h.steady.settings rfl) rfl _

/-- A change of the pins' levels and debounces, or of the lever field, of one record (R24). -/
theorem KeepsBudget.editPack (s : State) (x : Slot) {g : Pack → Pack}
    (hg : ∀ k, g k = { k with lever := (g k).lever, presPin := (g k).presPin, leverPin := (g k).leverPin }) :
    KeepsBudget s (s.editPack x g) := by
  have hsw : (g (s.ppc.pack x)).switch = (s.ppc.pack x).switch := by rw [hg]
  refine .of_unsettled (s.ppc.setPack_switched x _).unsettled (.refl _) ?_ (fun h => (s.editPack_safe h x hg).steady) fun _ => ?_
  · exact Ppc.setPack_switches hsw
  · refine .of_slot (s.ppc.setPack_other x _) fun _ => ?_
    rw [State.editPack, State.setPpc_ppc, Ppc.pack_setPack, hg]

theorem KeepsBudget.tick (s : State) : KeepsBudget s s.tick :=
  .of_unsettled ⟨rfl, rfl, rfl, rfl, rfl, rfl⟩ (.of_same ⟨rfl, rfl, rfl⟩) rfl (fun h => (State.tick_safe h).steady)
    fun _ x _ => by cases x <;> rfl

/-! ### The deliveries of MTM and SRT -/

theorem KeepsBudget.deliverPhase (s : State) (old new : Phase) : KeepsBudget s (s.deliverPhase old new) := by
  unfold State.deliverPhase
  split
  · exact .refl s
  · refine KeepsBudget.trans (u := if old = .idle then s.braceOn.freezeOn.overrideOn
      else if new = .idle then s.braceOff.freezeOff.overrideOff else s) ?_ (.of_same rfl rfl)
    split
    · refine (KeepsBudget.braceOn s).trans (.of_light (by simp) ?_)
      rw [State.overrideOn_lmc, State.freezeOn_lmc]
      exact .of_same ⟨rfl, rfl, rfl⟩
    · split
      · refine (KeepsBudget.braceOff s).trans (.of_light (by simp) ?_)
        rw [State.overrideOff_lmc, State.freezeOff_lmc]
        exact .recompute rfl rfl
      · exact .refl s

theorem KeepsBudget.mtmEnd (s : State) (r : Motion) : KeepsBudget s (s.mtmEnd r) :=
  .trans (.of_same (by simp) (by simp)) (.deliverPhase _ _ _)

theorem KeepsBudget.tapDeliver (s : State) (r : TapRole) (i : Nat) (x : Sample) : KeepsBudget s (s.tapDeliver r i x) := by
  unfold State.tapDeliver
  split
  · exact .refl s
  · split
    · exact .of_same (by simp) (by simp)
    · cases r with
      | noTap => exact .refl s
      | accel => exact .mtmEnd s _
      | lightFront | lightTop => exact .of_light (by simp) (s.lightSample_staysUnder _ _)
      | gaugeA | gaugeB => exact .gaugeTap s _ _
      | bridge => exact .bridgeTap s _

theorem KeepsBudget.routeSample (s : State) (x : Sample) : KeepsBudget s (s.routeSample x) := by
  unfold State.routeSample
  split
  · exact .of_same (by simp) (by simp)
  · split
    · exact .of_same (by simp) (by simp)
    · exact .trans (.of_same (by simp) (by simp)) (.tapDeliver _ _ _ _)

end Sys2Proof.Machine
end

section
/-! Every command keeps the power budget: the output under its ceiling (R57, R59, R62, R96, R97), and in a safe state the budget
settled (R56, R57). -/

namespace Sys2Proof.Machine

/-! ### Requests -/

/-- The owner's event keeps the power budget. -/
def OwnerKeepsBudget (owner : List Byte → State → Answer) : Prop := ∀ a s, KeepsBudget s (owner a s).state

/-- The owner's event leaves LMC alone. -/
def KeepsLmc (owner : List Byte → State → Answer) : Prop := ∀ a s, (owner a s).state.lmc = s.lmc

section
variable {owner : List Byte → State → Answer}

theorem OwnerKeepsBudget.serve (h : OwnerKeepsBudget owner) (s : State) (c : RequestCode) : KeepsBudget s (s.serve c owner) := by
  have ha : ∀ (u : State) g st b, KeepsBudget u (u.answer g st b) := fun u g st b =>
    .of_same (u.answer_ppc g st b) (u.answer_lmc g st b)
  rcases s.serve_cases c owner with ht | ⟨r, _, _, ht | ht | ht⟩ <;> rw [ht]
  · exact .refl s
  · exact ha s _ _ _
  · exact ha s _ _ _
  · exact (h _ s).trans (ha _ _ _ _)

/-- A request that leaves PPC and LMC alone. -/
theorem KeepsPpc.serve_budget (hp : KeepsPpc owner) (hl : KeepsLmc owner) (s : State) (c : RequestCode) :
    KeepsBudget s (s.serve c owner) := OwnerKeepsBudget.serve (fun a u => .of_same (hp a u) (hl a u)) s c

end

theorem motionSetOwner_lmc : KeepsLmc motionSetOwner := fun a s => by
  unfold motionSetOwner; dsimp only; split <;> simp
theorem dropReadOwner_lmc : KeepsLmc dropReadOwner := fun a s => by
  unfold dropReadOwner; split <;> rfl
theorem dropReleaseOwner_lmc : KeepsLmc dropReleaseOwner := fun a s => by
  unfold dropReleaseOwner
  split
  · rfl
  · dsimp only; split <;> simp
theorem eventConfigOwner_lmc : KeepsLmc eventConfigOwner := fun a s => by
  unfold eventConfigOwner; dsimp only; repeat' split
  all_goals simp
theorem noticeEnableOwner_lmc : KeepsLmc noticeEnableOwner := fun a s => by
  unfold noticeEnableOwner; dsimp only; repeat' split
  all_goals simp
theorem countReadOwner_lmc : KeepsLmc countReadOwner := fun a s => by
  unfold countReadOwner; dsimp only; repeat' split
  all_goals simp
theorem routeReadOwner_lmc : KeepsLmc routeReadOwner := fun a s => by
  unfold routeReadOwner; dsimp only; split <;> rfl
theorem passOwner_lmc : KeepsLmc passOwner := fun a s => by
  unfold passOwner State.offerPort; dsimp only; repeat' split
  all_goals simp
theorem routeWriteOwner_lmc : KeepsLmc routeWriteOwner := fun a s => by
  unfold routeWriteOwner; dsimp only; repeat' split
  all_goals simp
theorem routeFlushOwner_lmc : KeepsLmc routeFlushOwner := fun a s => by
  rw [routeFlushOwner_eq, State.collide_lmc, State.setSrt_lmc]
theorem countSnapshotOwner_lmc : KeepsLmc countSnapshotOwner := fun a s => by
  unfold countSnapshotOwner
  rw [Answer.ok_state]
  split <;> rfl

theorem packProfileOwner_budget : OwnerKeepsBudget packProfileOwner := fun a s => by
  unfold packProfileOwner
  dsimp only
  split
  · exact .ppcSettle (fun h => Ppc.withProfile_steady h.steady _) rfl _
  · exact .refl s

/-- The end of a release, judged on the records `p` of which slot `x` may have begun to change (R37). -/
theorem KeepsBudget.release {s : State} {p : Ppc} (x : Slot) (r : Regime) (hst : s.ppc.safe → p.Steady) (hp : s.ppc.Switched p)
    (ho : p.pack (otherSlot x) = s.ppc.pack (otherSlot x)) (hx : (p.pack x).allowance = (s.ppc.pack x).allowance) :
    KeepsBudget s (s.ppcEnd (p.release x s.idlePhase r).ppc (p.release x s.idlePhase r).pulses) :=
  .ppcEnd (fun h => Ppc.release_steady (hst h) x _ r) (hp.trans (p.release_switched x _ r)).unsettled
    (fun _ => .of_slot (ho ▸ p.release_other x _ r) fun _ => (p.release_allowance x _ r).trans hx) _

theorem packReleaseOwner_budget : OwnerKeepsBudget packReleaseOwner := fun a s => by
  unfold packReleaseOwner
  split
  · exact .refl s
  · next x _ =>
    have hend := KeepsBudget.release (s := s) x .attended Ppc.safe.steady (.refl s.ppc) rfl rfl
    dsimp only
    split
    · exact .refl s
    · exact hend
    · exact hend

theorem powerSetOwner_budget : OwnerKeepsBudget powerSetOwner := fun a s => by
  unfold powerSetOwner
  dsimp only
  split
  · exact .refl s
  · rw [Answer.ok_state]
    exact .ppcSettle (fun h => h.steady.settings (by rfl)) (by rfl) _

theorem bridgeSetOwner_budget : OwnerKeepsBudget bridgeSetOwner := fun a s => by
  unfold bridgeSetOwner
  dsimp only
  split
  · exact .refl s
  · rw [Answer.ok_state]
    exact .ppcSettle (fun h => h.steady.settings (by rfl)) (by rfl) _

theorem lightSetOwner_budget : OwnerKeepsBudget lightSetOwner := fun a s => by
  unfold lightSetOwner
  dsimp only
  split
  · have hset : ∀ front top set, KeepsBudget s (s.setLmc (s.lmc.withSettings front top set)) := fun _ _ _ =>
      .of_light rfl (.of_same ⟨rfl, rfl, rfl⟩)
    exact (hset _ _ _).trans (.deliverPBlMax _ _)
  · exact .refl s

/-- O, the target record and C_power outlast a RESTART until its settlement (R105). -/
theorem restartOwner_budget : OwnerKeepsBudget restartOwner := fun a s => by
  unfold restartOwner
  split
  · rw [Answer.ok_state, State.restarted_eq]
    have hcleared : KeepsBudget s s.cleared := .of_light rfl (.of_same ⟨rfl, rfl, rfl⟩)
    exact hcleared.trans (.ppcSettle (fun h => Ppc.restarted_steady h.steady) rfl _)
  · exact .refl s

theorem curveHeaderOwner_budget : OwnerKeepsBudget curveHeaderOwner := fun a s => by
  unfold curveHeaderOwner
  dsimp only
  split
  · exact .refl s
  · rw [Answer.ok_state]
    exact .lmcEnd (.recompute (by rfl) (by rfl)) _

theorem curvePointOwner_budget : OwnerKeepsBudget curvePointOwner := fun a s => by
  unfold curvePointOwner
  dsimp only
  split
  · exact .refl s
  · exact .lmcEnd (s.lmc.writePoint_staysUnder _ _) _

theorem blBiasOwner_budget : OwnerKeepsBudget blBiasOwner := fun a s => by
  rw [blBiasOwner, Answer.ok_state]
  exact .lmcEnd (.recompute (by rfl) (by rfl)) _

theorem blForceOwner_budget : OwnerKeepsBudget blForceOwner := fun a s => by
  rw [blForceOwner, Answer.ok_state]
  exact .lmcEnd (.recompute (by rfl) (by rfl)) _

theorem blReleaseOwner_budget : OwnerKeepsBudget blReleaseOwner := fun a s => by
  unfold blReleaseOwner
  dsimp only
  split
  · rw [Answer.ok_state]
    exact .lmcEnd (.recompute (by rfl) (by rfl)) _
  · exact .refl s

/-! ### Every command -/

/-- Power-on reset: nothing was delivered, and O is 0 (R46, R66, R104). -/
theorem KeepsBudget.powerOn (s : State) (pins : Pins) (pending : List Instr) : KeepsBudget s (State.powerOn pins pending) where
  safe _ := State.ppcSettle_safe _ (Ppc.powerOn_steady pins) _
  ceiling _ := by
    refine State.ppcSettle_underCeiling ?_ rfl _
    rw [Ppc.powerOn_eq]
    exact ⟨rfl, rfl, Nat.zero_le _, Nat.le_refl _, Nat.le_refl _, fun _ => rfl⟩
  settled _ _ := State.ppcSettle_settled _ _ _

theorem KeepsBudget.setLki (s : State) (l : Lki) : KeepsBudget s (s.setLki l) := .of_same rfl rfl

theorem KeepsBudget.finishRestart (s : State) : KeepsBudget s s.finishRestart := by
  unfold State.finishRestart
  split
  · exact restartOwner_budget.serve s _
  · exact .refl s

theorem KeepsBudget.receivePort (s : State) (p : PortId) (f : WireFrame) : KeepsBudget s (s.receivePort p f) := by
  unfold State.receivePort
  split
  · have hedit : KeepsBudget s (s.finishRestart.editPort p fun x => { x with rx := .hunting }) :=
      (KeepsBudget.finishRestart s).trans (.of_same rfl rfl)
    exact hedit.trans (.routeSample _ _)
  · exact .of_same rfl rfl

theorem KeepsBudget.attend (s : State) : KeepsBudget s s.attend := by
  unfold State.attend
  split
  · exact (KeepsBudget.setLki s _).trans (.deliverRegime _ _)
  · exact .refl s

theorem KeepsBudget.receiveUplink (s : State) (f : WireFrame) : KeepsBudget s (s.receiveUplink f) := by
  unfold State.receiveUplink
  dsimp only
  split
  · unfold State.validRequest
    exact ((KeepsBudget.setLki s _).trans (.setLki _ _)).trans
      ((KeepsBudget.attend _).trans (.of_same (State.admitRequest_ppc _ _) (State.admitRequest_lmc _ _)))
  · exact .of_same (by simp) (by simp)

/-- Every command keeps the power budget. -/
theorem exec_keepsBudget {c : Instr} {s t : State} (hx : exec c s = .next t) : KeepsBudget s t := by
  cases c with
  | powerOnReset pins => exact Host.Outcome.next.inj hx ▸ .powerOn s pins _
  | requestFrameReceived f | uplinkFrameDiscarded f => exact Host.Outcome.next.inj hx ▸ .receiveUplink s f
  | sampleFrameReceived p f | badSampleFrame p f => exact Host.Outcome.next.inj hx ▸ .receivePort s p f
  | uplinkByteGap | portByteGap _ | transmitComplete | holdOffExpiry =>
    obtain rfl := Host.Outcome.next.inj hx
    split <;> exact .of_same (by simp) (by simp)
  | uplinkFrameStart | portFrameStart _ | passSendComplete _ => exact Host.Outcome.next.inj hx ▸ .of_same rfl rfl
  | stepExpiry =>
    obtain rfl := Host.Outcome.next.inj hx
    exact .of_light rfl ⟨rfl, id, Lmc.stepOut_le⟩
  | lightStaleExpiry r =>
    obtain rfl := Host.Outcome.next.inj hx
    split
    · exact .lmcEnd (s.lmc.revalidated_staysUnder r _) _
    · exact .refl s
  | silenceTimeoutExpiry =>
    obtain rfl := Host.Outcome.next.inj hx
    split
    · exact (KeepsBudget.setLki s _).trans (.deliverRegime _ _)
    · exact .refl s
  | rawInputChange pin _ =>
    obtain rfl := Host.Outcome.next.inj hx
    cases pin <;> exact .editPack s _ fun _ => rfl
  | leverRelease _ =>
    obtain rfl := Host.Outcome.next.inj hx
    split
    · exact .editPack s _ fun _ => rfl
    · exact .refl s
  | seating x =>
    obtain rfl := Host.Outcome.next.inj hx
    split
    · exact .refl s
    · next hp =>
      have hempty : s.ppc.safe → (s.ppc.pack x).state ≠ .online := fun h => by
        simp [(h.steady.ordered.record x).empty (by simpa using hp)]
      exact .ppcEnd (fun h => Ppc.seat_steady h.steady.ordered (by simpa using hp)) (s.ppc.seat_switched x).unsettled
        (fun h => .of_offline (s.ppc.setPack_select_other x _) (hempty h)) _
  | presenceLoss x =>
    obtain rfl := Host.Outcome.next.inj hx
    split
    · exact .refl s
    · have hlost : ∀ ps, KeepsBudget s (s.ppcEnd (s.ppc.lose x s.idlePhase) ps) :=
        .ppcEnd (fun h => Ppc.lose_steady h.steady.ordered x _) (s.ppc.lose_switched x _).unsettled
          fun _ => .of_slot (s.ppc.lose_other x _) fun _ => by rw [s.ppc.lose_pack]; rfl
      dsimp only
      split
      · exact (hlost _).trans (.of_same (State.reportDislodged_ppc _ _) (State.reportDislodged_lmc _ _))
      · exact hlost _
  | leverPress x =>
    obtain rfl := Host.Outcome.next.inj hx
    split
    · exact .refl s
    · refine .release x _ (fun h => h.steady.setPack ((h.steady.ordered.record x).congr rfl rfl rfl rfl rfl rfl) rfl id)
        (s.ppc.setPack_switched x _) (Ppc.pack_setPack_other _ _ _) ?_
      rw [Ppc.pack_setPack]
      rfl
  | dcinOkChange level =>
    obtain rfl := Host.Outcome.next.inj hx
    split
    · exact .refl s
    · next hl =>
      exact .ppcSettle (fun h => Ppc.dcChange_steady h.steady.ordered hl) (by rw [(s.ppc.dcChange_switched level).2.2]) _
  | brPresChange level =>
    obtain rfl := Host.Outcome.next.inj hx
    split
    · exact .refl s
    · exact .ppcSettle (fun h => Ppc.bridgeFit_steady h.steady level) (by rw [Ppc.bridgeFit_budget]) _
  | qualTimeoutExpiry x =>
    obtain rfl := Host.Outcome.next.inj hx
    split
    · next hq =>
      obtain ⟨hs, _⟩ : (s.ppc.pack x).state = .qualifying ∧ (s.ppc.pack x).qualTimer.isSome = true := by simpa using hq
      exact .ppcEnd (fun h => Ppc.enterFault_steady h.steady.ordered (by simp [hs]) (by simp [hs]) _ _)
        (s.ppc.enterFault_switched x _ _).unsettled (fun _ => .of_offline (s.ppc.enterFault_other x _ _) (by simp [hs])) _
    · exact .refl s
  | gaugeStaleExpiry x =>
    obtain rfl := Host.Outcome.next.inj hx
    have hst : s.ppc.safe → (s.ppc.gaugeStale x).Steady := fun h => Ppc.gaugeStale_steady h.steady x
    have hsw := s.ppc.gaugeStale_switched x
    split
    · exact .refl s
    · split
      · exact .ppcSettle hst (by rw [hsw.budget]) _
      · next hon =>
        exact .ppcQuiet hst hsw.unsettled (s.ppc.gaugeStale_switches x)
          (fun _ => .of_offline (s.ppc.setPack_other x _) hon) _
  | releaseConfirmExpiry x =>
    obtain rfl := Host.Outcome.next.inj hx
    split
    · next hc =>
      obtain ⟨hs, ht⟩ : (s.ppc.pack x).state = .releasing ∧ (s.ppc.pack x).confirmTimer.isSome = true := by simpa using hc
      exact .ppcEnd (fun h => Ppc.confirm_steady h.steady hs ((h.steady.ordered.record x).unpending_of_confirm ht) _)
        (s.ppc.confirm_switched x _).unsettled (fun _ => .of_offline (s.ppc.confirm_other x _) (by simp [hs])) _
    · exact .refl s
  | unlockHoldExpiry x =>
    obtain rfl := Host.Outcome.next.inj hx
    split
    · next hu =>
      obtain ⟨hs, _⟩ : (s.ppc.pack x).state = .unlocked ∧ (s.ppc.pack x).holdTimer.isSome = true := by simpa using hu
      exact .ppcEnd (fun h => Ppc.relock_steady h.steady.ordered hs) (s.ppc.relock_switched x).unsettled
        (fun _ => .of_offline (s.ppc.setPack_select_other x _) (by simp [hs])) _
    · exact .refl s
  | transferSettleExpiry =>
    obtain rfl := Host.Outcome.next.inj hx
    split
    · exact .ppcEnd (fun h => Ppc.settleExpiry_steady h.steady) s.ppc.settleExpiry_switched.unsettled
        (fun _ => .of_pack fun x => by rw [s.ppc.settleExpiry_only]; cases x <;> rfl) _
    · exact .refl s
  | swapWindowExpiry =>
    obtain rfl := Host.Outcome.next.inj hx
    split
    · exact .ppcSettle (fun h => Ppc.exhaust_steady h.steady.ordered) (by rw [Ppc.exhaust, Ppc.select_budget]) _
    · exact .refl s
  | accelStaleExpiry | protectHoldExpiry =>
    obtain rfl := Host.Outcome.next.inj hx
    split
    · exact .mtmEnd s _
    · exact .refl s
  | identify | linkStatus | powerStatus | curveRead | blStatus | motionStatus | linkSet | eventReadClear =>
    exact Host.Outcome.next.inj hx ▸ KeepsPpc.serve_budget (fun _ _ => rfl) (fun _ _ => rfl) s _
  | holdNotices =>
    exact Host.Outcome.next.inj hx ▸ KeepsPpc.serve_budget (fun a s => s.holdNotices_ppc _) (fun a s => s.holdNotices_lmc _) s _
  | packStatus =>
    exact Host.Outcome.next.inj hx ▸ KeepsPpc.serve_budget (fun a s => by split <;> rfl) (fun a s => by split <;> rfl) s _
  | packProfileWrite => exact Host.Outcome.next.inj hx ▸ packProfileOwner_budget.serve s _
  | packRelease => exact Host.Outcome.next.inj hx ▸ packReleaseOwner_budget.serve s _
  | powerSet => exact Host.Outcome.next.inj hx ▸ powerSetOwner_budget.serve s _
  | bridgeSet => exact Host.Outcome.next.inj hx ▸ bridgeSetOwner_budget.serve s _
  | lightSet => exact Host.Outcome.next.inj hx ▸ lightSetOwner_budget.serve s _
  | restart => exact Host.Outcome.next.inj hx ▸ restartOwner_budget.serve s _
  | curveWriteHeader => exact Host.Outcome.next.inj hx ▸ curveHeaderOwner_budget.serve s _
  | curveWritePoint => exact Host.Outcome.next.inj hx ▸ curvePointOwner_budget.serve s _
  | blBias => exact Host.Outcome.next.inj hx ▸ blBiasOwner_budget.serve s _
  | blForce => exact Host.Outcome.next.inj hx ▸ blForceOwner_budget.serve s _
  | blRelease => exact Host.Outcome.next.inj hx ▸ blReleaseOwner_budget.serve s _
  | routeWrite => exact Host.Outcome.next.inj hx ▸ routeWriteOwner_ppc.serve_budget routeWriteOwner_lmc s _
  | routeFlush => exact Host.Outcome.next.inj hx ▸ routeFlushOwner_ppc.serve_budget routeFlushOwner_lmc s _
  | routeRead => exact Host.Outcome.next.inj hx ▸ routeReadOwner_ppc.serve_budget routeReadOwner_lmc s _
  | countSnapshot => exact Host.Outcome.next.inj hx ▸ countSnapshotOwner_ppc.serve_budget countSnapshotOwner_lmc s _
  | countRead => exact Host.Outcome.next.inj hx ▸ countReadOwner_ppc.serve_budget countReadOwner_lmc s _
  | pass => exact Host.Outcome.next.inj hx ▸ passOwner_ppc.serve_budget passOwner_lmc s _
  | motionSet => exact Host.Outcome.next.inj hx ▸ motionSetOwner_ppc.serve_budget motionSetOwner_lmc s _
  | dropRead => exact Host.Outcome.next.inj hx ▸ dropReadOwner_ppc.serve_budget dropReadOwner_lmc s _
  | dropRelease => exact Host.Outcome.next.inj hx ▸ dropReleaseOwner_ppc.serve_budget dropReleaseOwner_lmc s _
  | eventConfig => exact Host.Outcome.next.inj hx ▸ eventConfigOwner_ppc.serve_budget eventConfigOwner_lmc s _
  | noticeEnable => exact Host.Outcome.next.inj hx ▸ noticeEnableOwner_ppc.serve_budget noticeEnableOwner_lmc s _
  | unknownRequest =>
    obtain rfl := Host.Outcome.next.inj hx
    split
    · split <;> exact .of_same (by simp) (by simp)
    · exact .refl s

/-- Every step keeps the power budget; a millisecond moves only timers. -/
theorem step_keepsBudget {s t : State} (h : step s = .next t) : KeepsBudget s t := by
  unfold step at h
  split at h
  · next c rest _ => exact .trans (.of_same (s.setPending_ppc rest) (s.setPending_lmc rest)) (exec_keepsBudget h)
  · split at h
    · exact exec_keepsBudget h
    · exact Host.Outcome.next.inj h ▸ .tick s

/-- Settles O5: a settlement cuts O and T to the C_power that it delivers, and every other event leaves both under it
(`exec_keepsBudget`). -/
theorem outputStaysUnderCeiling : Obligations.OutputStaysUnderCeiling := by
  unfold Obligations.OutputStaysUnderCeiling
  exact fun s t h hstep => (step_keepsBudget hstep).ceiling h

/-- Settles O6: a settlement forms the budget, and an event without one moved no switch and left the ONLINE pack its allowance
(`exec_keepsBudget`). -/
theorem budgetStaysSettled : Obligations.BudgetStaysSettled := by
  unfold Obligations.BudgetStaysSettled
  exact fun s t hsafe hset hstep => (step_keepsBudget hstep).settled hsafe hset

end Sys2Proof.Machine
end

section
/-! A change of BR_PRES (R49): the cell is fitted or removed, SW_BR is closed where it is needed (R53), and the event is settled. -/

namespace Sys2Proof.Machine

/-- PPC with the bridge cell fitted or removed, and SW_BR at `closed` (R49). -/
def Ppc.withCell (p : Ppc) (level closed : Bool) : Ppc :=
  { p with bridge := { p.bridge with fitted := level, last := none, low := false, switch := closed } }

section
variable {p : Ppc} {level : Bool} (h : p.safe) (hf : p.bridge.fitted = !level)
include h hf

/-- In a safe state the change moves SW_BR alone: it was not closed without a cell, and a cell that carried alone left no pack for
the selection run to close (R33, R49, R53, R60). -/
theorem Ppc.bridgeFit_eq : p.bridgeFit level = p.withCell level (level && p.bridgeNeeded) := by
  cases level with
  | true =>
    have hopen : p.bridge.switch = false := Bool.eq_false_iff.2 fun hs => by simp [h.steady.ordered.cell hs] at hf
    have hneed : ∀ b : Bridge, ({ p with bridge := b } : Ppc).bridgeNeeded = p.bridgeNeeded := fun _ => rfl
    unfold Ppc.bridgeFit
    simp only [if_true, hneed, Bool.true_and]
    cases p.bridgeNeeded with
    | true => rfl
    | false => simp [Ppc.withCell, hopen]
  | false =>
    unfold Ppc.bridgeFit
    simp only [Bool.false_eq_true, if_false, Bool.false_and]
    split
    · next hc =>
      obtain ⟨halone, _⟩ : p.bridge.alone = true ∧ p.bridge.window ≠ .none := by simpa using hc
      obtain ⟨_, _, hd, hidle⟩ := h.alone halone
      exact Ppc.select_idle _ hd fun x => (hidle x).2
    · rfl

/-- The settlement of the change: carrying alone follows the switches, with a window that waits unless the bridge is exhausted,
since no sample has come (R49, R56, R58). -/
theorem Ppc.settle_bridgeFit (out : Nat) : (p.settle (p.bridgeFit level) out).bridge =
    { p.bridge with
      fitted := level, last := none, low := false, switch := level && p.bridgeNeeded, alone := level && !p.mainClosed
      window := if level && !p.mainClosed && !p.bridge.exhausted then .waiting else .none } := by
  have hcarries : (p.withCell level (level && p.bridgeNeeded)).carriesAlone = (level && !p.mainClosed) := by
    show ((level && (p.brace || !p.mainClosed)) && !p.mainClosed) = _
    cases level <;> cases p.mainClosed <;> simp
  have hmain : p.closedMainSince (p.withCell level (level && p.bridgeNeeded)) = false := by
    simp [Ppc.closedMainSince, Ppc.withCell]
  have hstart : p.windowStart (p.withCell level (level && p.bridgeNeeded)) = none := by
    unfold Ppc.windowStart
    split <;> rfl
  have halone : (level && !p.mainClosed) = true → p.bridge.alone = false := fun hl => Bool.eq_false_iff.2 fun ha => by
    have hfitted := h.steady.ordered.cell (h.alone ha).1
    simp [show level = false by simpa [hfitted] using hf] at hl
  have hwindow : p.bridge.alone = false → p.bridge.window = .none := fun ha => by
    by_contra hw
    exact Bool.false_ne_true (ha.symm.trans (h.steady.ordered.window hw).1)
  rw [Ppc.bridgeFit_eq h hf]
  unfold Ppc.settle Ppc.settleBridge
  simp only [hstart, hcarries, hmain]
  cases hc : (level && !p.mainClosed) with
  | true => cases hx : p.bridge.exhausted <;> simp [Ppc.withCell, halone hc, hx]
  | false =>
    cases ha : p.bridge.alone with
    | true => simp [Ppc.withCell, ha]
    | false => simp [Ppc.withCell, ha, hwindow ha]

end

theorem exec_brPresChange {s : State} {level : Bool} (h : s.ppc.bridge.fitted = !level) :
    exec (.brPresChange level) s = .next (s.ppcSettle (s.ppc.bridgeFit level) []) :=
  congrArg Host.Outcome.next (if_neg (by simp [h]))

/-- Settles O31: in a safe state the change moves SW_BR alone (`Ppc.bridgeFit_eq`), and its settlement gives the bridge record
(`Ppc.settle_bridgeFit`), the conditions and the delivery of C_power. -/
theorem bridgeIsFittedOrRemoved : Obligations.BridgeIsFittedOrRemoved := by
  unfold Obligations.BridgeIsFittedOrRemoved
  intro level s hf hsafe
  have hfit := Ppc.bridgeFit_eq hsafe hf
  have hppc := s.ppcSettle_ppc (s.ppc.bridgeFit level) []
  have hbridge : (s.ppcSettle (s.ppc.bridgeFit level) []).ppc.bridge = _ :=
    (congrArg Ppc.bridge hppc).trans (Ppc.settle_bridgeFit hsafe hf s.lmc.out)
  have hfollows : ∀ {e v}, e ∈ powerConditions → Delivers (s.ppcSettle (s.ppc.bridgeFit level) []).ppc.conditions e v →
      ConditionFollows s (s.ppcSettle (s.ppc.bridgeFit level) []) e v := fun he hd =>
    (Reached.refl s).follows_ppcSettle he List.not_mem_nil hd
  have hlow := Ppc.delivers_bridgeLow (s.ppcSettle (s.ppc.bridgeFit level) []).ppc
  have hfault := Ppc.delivers_bridgeFault (s.ppcSettle (s.ppc.bridgeFit level) []).ppc
  rw [hbridge] at hlow hfault
  refine ⟨_, exec_brPresChange hf, s.ppcSettle_only _ _,
    fun _ => (LightQuiet.refl s).delivered_ppcSettle (by rw [Ppc.bridgeFit_budget]) List.not_mem_nil List.not_mem_nil,
    hfollows (by decide) hlow, hfollows (by decide) hfault, by rw [hbridge], by rw [hbridge], by rw [hbridge], ?_, ?_, ?_,
    by rw [hbridge], s.ppcSettle_settled _ _, fun hlen ha => ?_, ?_⟩
  · rw [hbridge]; rfl
  · rw [hbridge]; rfl
  · rw [hbridge]
  · obtain ⟨hlive, hrise, _⟩ := hfollows (by decide) (Ppc.delivers_bridgeAlone _) hlen
    exact ⟨hlive.trans ha, fun hl => hrise hl ha⟩
  · rw [hppc, hfit]
    exact ⟨rfl, rfl, rfl, rfl, rfl, rfl, rfl⟩

end Sys2Proof.Machine
end

section
/-! A LIGHT sample outside a freeze (R69, R70, R72 to R78, R81): the role that stores it, the combination, the log and the filter
of the measurement, and the mode and target that the update leaves. -/

namespace Sys2Proof.Machine

/-! ### Conversion, combination and filter -/

theorem logLux_zero : logLux 0 = 0 := rfl

/-- The log conversion of a value between two powers of two: the exponent and the eight bits below the leading one (R74). -/
theorem logLux_of_between {k v : Nat} (hlo : 2 ^ k ≤ v) (hhi : v < 2 ^ (k + 1)) :
    logLux v = 256 * k + (if 8 ≤ k then v / 2 ^ (k - 8) else v * 2 ^ (8 - k)) % 256 := by
  have hv : v ≠ 0 := ((Nat.two_pow_pos k).trans_le hlo).ne'
  have hk : v.log2 = k := (Nat.log2_eq_iff hv).2 ⟨hlo, hhi⟩
  simp only [logLux, hv, hk, if_false, Nat.shiftRight_eq_div_pow]

/-- A filter step by the side of the dead band on which Lg lies (R75). -/
theorem filterStep_eq (set : LightSettings) (g lg : Nat) : filterStep set g lg =
    if g + set.deadBand < lg then g + max ((lg - g) / 2 ^ set.sUp) 1
    else if lg + set.deadBand < g then g - max ((g - lg) / 2 ^ set.sDown) 1 else g := by
  unfold filterStep
  simp only [Nat.shiftRight_eq_div_pow, Bool.and_eq_true, decide_eq_true_eq]
  by_cases hup : g + set.deadBand < lg
  · rw [if_neg (by omega), if_pos (by omega), if_pos hup]
  · by_cases hdown : lg + set.deadBand < g
    · rw [if_neg (by omega), if_neg (by omega), if_neg hup, if_pos hdown]
    · rw [if_pos (by omega), if_neg hup, if_neg hdown]

/-- The term of a role with the lux value `v`: the top role's is weighted by W_top (R73). -/
def Lmc.term (m : Lmc) (r : LightRole) (v : Nat) : Nat := if r = .top then v * m.set.wTop / 16 else v

/-- The combination of a role's own term with the role `o`, where that one takes part: it is LIVE and has an L (R73). -/
def Lmc.joined (m : Lmc) (o : LightRole) (own : Nat) : Nat :=
  if (m.role o).live then (m.role o).lux.elim own fun v => max own (m.term o v) else own

/-- With one role taking part, the combination is that of its term with the other role (R73). -/
theorem Lmc.combine_of_live (m : Lmc) {r o : LightRole} (ho : o ≠ r) {l : Nat} (hlive : (m.role r).live = true)
    (hlux : (m.role r).lux = some l) : m.combine = some (m.joined o (m.term r l)) := by
  cases r with
  | front =>
    obtain rfl : o = .top := by cases o with
      | front => exact absurd rfl ho
      | top => rfl
    have hf : m.frontTerm = some l := (if_pos hlive).trans hlux
    simp only [Lmc.combine, hf, Lmc.topTerm, Lmc.joined, Lmc.term, Lmc.role, reduceCtorEq, if_false, if_true]
    cases m.top.live <;> cases m.top.lux <;> rfl
  | top =>
    obtain rfl : o = .front := by cases o with
      | front => rfl
      | top => exact absurd rfl ho
    have ht : m.topTerm = some (l * m.set.wTop / 16) := (if_pos hlive).trans (congrArg _ hlux)
    simp only [Lmc.combine, ht, Lmc.frontTerm, Lmc.joined, Lmc.term, Lmc.role, reduceCtorEq, if_false, if_true]
    cases m.front.live
    · rfl
    · cases m.front.lux
      · rfl
      · exact congrArg some (max_comm _ _)

/-- E, Lg and F of a combination `e` (R70 steps 3 to 5). -/
theorem Lmc.measure_of_combine {m : Lmc} {e : Nat} (h : m.combine = some e) : m.measure = { m with
    e := some e, lg := some (logLux e), f := some (m.f.elim (logLux e) fun g => filterStep m.set g (logLux e)) } := by
  unfold Lmc.measure
  rw [h]
  cases m.f <;> rfl

/-! ### LMC after the sample, before its target is recomputed -/

section
variable (m : Lmc) (r : LightRole) (count range : Nat)

/-- LMC with the sample stored in its role (R70 steps 1 and 2). -/
def Lmc.stored : Lmc :=
  m.setRole r { m.role r with
    live := true, lux := some (luxOf (m.role r).gains count range), timer := some m.set.lightStale }

/-- LMC with the sample stored and measured, and valid judged (R70, R77). -/
def Lmc.measured : Lmc := (m.stored r count range).measure.revalidate

theorem Lmc.storeSample_eq : m.storeSample r count range = (m.measured r count range).recompute := rfl

theorem Lmc.stored_only : m.stored r count range = { m with
    front := (m.stored r count range).front, top := (m.stored r count range).top } := m.setRole_only r _

/-- All that a sample changes before the target is recomputed. -/
theorem Lmc.measured_only : m.measured r count range = { m with
    front := (m.measured r count range).front, top := (m.measured r count range).top, e := (m.measured r count range).e
    lg := (m.measured r count range).lg, f := (m.measured r count range).f, valid := (m.measured r count range).valid
    mode := (m.measured r count range).mode } := by
  unfold Lmc.measured
  rw [Lmc.revalidate_only, Lmc.measure_only, Lmc.stored_only]

theorem Lmc.measured_lux : ((m.measured r count range).role r).lux = some (luxOf (m.role r).gains count range) := by
  simp [Lmc.measured, Lmc.stored]

/-- The measurement of a stored sample (R73 to R75). -/
theorem Lmc.stored_measure {o : LightRole} (ho : o ≠ r) : (m.stored r count range).measure =
    let v := m.joined o (m.term r (luxOf (m.role r).gains count range))
    { m.stored r count range with
      e := some v, lg := some (logLux v), f := some (m.f.elim (logLux v) fun g => filterStep m.set g (logLux v)) } := by
  have hset : (m.stored r count range).set = m.set := by rw [Lmc.stored_only]
  have hf : (m.stored r count range).f = m.f := by rw [Lmc.stored_only]
  have hother : (m.stored r count range).role o = m.role o := m.role_setRole_ne _ ho
  have hcombine := (m.stored r count range).combine_of_live ho (l := luxOf (m.role r).gains count range)
    (by simp [Lmc.stored]) (by simp [Lmc.stored])
  rw [Lmc.measure_of_combine hcombine]
  simp only [Lmc.joined, Lmc.term, hset, hf, hother]

theorem Lmc.measured_e {o : LightRole} (ho : o ≠ r) :
    (m.measured r count range).e = some (m.joined o (m.term r (luxOf (m.role r).gains count range))) := by
  rw [Lmc.measured, Lmc.revalidate_only, m.stored_measure r count range ho]

/-- Lg is the log of E; F is set to it if unset and otherwise stepped toward it (R74, R75). -/
theorem Lmc.measured_filtered {v : Nat} (h : (m.measured r count range).e = some v) :
    (m.measured r count range).lg = some (logLux v)
      ∧ (m.measured r count range).f = some (m.f.elim (logLux v) fun g => filterStep m.set g (logLux v)) := by
  obtain ⟨o, ho⟩ : ∃ o, o ≠ r := ⟨if r = .top then .front else .top, by cases r <;> decide⟩
  rw [m.measured_e r count range ho] at h
  obtain rfl := Option.some.inj h
  rw [Lmc.measured, Lmc.revalidate_only, m.stored_measure r count range ho]
  exact ⟨rfl, rfl⟩

/-- A measured sample satisfies both conditions of valid: F is set and a role is LIVE (R77). -/
theorem Lmc.stored_measure_judged : ((m.stored r count range).measure.f.isSome
    && ((m.stored r count range).measure.front.live || (m.stored r count range).measure.top.live)) = true := by
  obtain ⟨o, ho⟩ : ∃ o, o ≠ r := ⟨if r = .top then .front else .top, by cases r <;> decide⟩
  rw [m.stored_measure r count range ho]
  exact m.setRole_live r _ rfl

theorem Lmc.stored_measure_mode : (m.stored r count range).measure.mode = m.mode := by
  rw [Lmc.measure_only, Lmc.stored_only]
theorem Lmc.stored_measure_valid : (m.stored r count range).measure.valid = m.valid := by
  rw [Lmc.measure_only, Lmc.stored_only]

theorem Lmc.measured_valid : (m.measured r count range).valid = true :=
  (Lmc.revalidate_valid _).trans (m.stored_measure_judged r count range)

theorem Lmc.measured_mode_kept (h : m.mode = .forced ∨ m.valid = true) : (m.measured r count range).mode = m.mode := by
  refine (Lmc.revalidate_mode_kept _ ?_).trans (m.stored_measure_mode r count range)
  rw [Lmc.stored_measure_mode, Lmc.stored_measure_judged, Lmc.stored_measure_valid]
  exact h.imp_right Eq.symm

theorem Lmc.measured_mode_curve (hm : m.mode ≠ .forced) (hv : m.valid = false) :
    (m.measured r count range).mode = .curve :=
  Lmc.revalidate_mode_curve _ (by rwa [Lmc.stored_measure_mode]) (by rwa [Lmc.stored_measure_valid])
    (m.stored_measure_judged r count range)

end

/-- All that a sample outside a freeze changes (R70, R72). -/
theorem Lmc.storeSample_only (m : Lmc) (r : LightRole) (count range : Nat) : m.storeSample r count range = { m with
    front := (m.storeSample r count range).front, top := (m.storeSample r count range).top
    e := (m.storeSample r count range).e, lg := (m.storeSample r count range).lg, f := (m.storeSample r count range).f
    valid := (m.storeSample r count range).valid, mode := (m.storeSample r count range).mode
    t0 := (m.storeSample r count range).t0, target := (m.storeSample r count range).target
    curve := { m.curve with
      latch := (m.storeSample r count range).curve.latch
      validationPending := (m.storeSample r count range).curve.validationPending
      consistent := (m.storeSample r count range).curve.consistent } } := by
  rw [Lmc.storeSample_eq, Lmc.recompute_only, Lmc.measured_only]

/-- A recomputation from a state that kept the curve and the target record of `m` (R81, R96). -/
theorem Lmc.recomputed_of_kept {m x : Lmc} (hcurve : x.curve = m.curve) (ht0 : x.t0 = m.t0) (htarget : x.target = m.target) :
    ({ x.recompute with curve := m.curve, t0 := m.t0, target := m.target } : Lmc).Recomputed x.recompute := by
  have hback : ({ x.recompute with curve := m.curve, t0 := m.t0, target := m.target } : Lmc) = x := by
    rw [Lmc.recompute_only, ← hcurve, ← ht0, ← htarget]
  rw [hback]
  exact x.recompute_recomputed

/-- A tapped light sample reaches LMC with LMC as it was (R2, R70). -/
theorem Tapped.light {s : State} {f : WireFrame} {i : Nat} {e : RouteEntry} {r : LightRole} (h : Tapped s f i e (lightTap r))
    (p : PortId) : ∃ u, Reached s u ∧ exec (.sampleFrameReceived p f) s = .next (u.lightSample r (sampleOf f.body).payload) := by
  obtain ⟨hf, he, htap, hk, hr⟩ := h
  refine ⟨_, s.reached p i e (sampleOf f.body), congrArg Host.Outcome.next ((s.receivePort_matched p f i e hf hr he).trans ?_)⟩
  rw [htap]
  exact State.tapDeliver_light _ _ r (by rw [hk]; cases r <;> rfl)

/-- Settles O21: LMC ends as the recomputation of the measured sample, and each part of the statement is a fact about the one or
the other. -/
theorem lightSampleIsMeasured : Obligations.LightSampleIsMeasured := by
  unfold Obligations.LightSampleIsMeasured
  intro p f s i e r htap hfreeze
  obtain ⟨u, hu, hexec⟩ := htap.light p
  have hlmc : (u.lightSample r (sampleOf f.body).payload).lmc
      = s.lmc.storeSample r (u16 (sampleOf f.body).payload 0) (u8 (sampleOf f.body).payload 2) := by
    rw [State.lightSample_lmc, hu.lmc, if_neg (by simp [hfreeze])]
  refine ⟨_, hexec, ?_⟩
  unfold Retargeted
  rw [hlmc]
  generalize u16 (sampleOf f.body).payload 0 = count
  generalize u8 (sampleOf f.body).payload 2 = range
  have hmeasured := s.lmc.measured_only r count range
  have honly := s.lmc.storeSample_only r count range
  obtain ⟨_, _, _, hother, _⟩ := s.lmc.storeSample_lit r count range
  refine ⟨⟨?lux, fun o ho => ⟨hother o ho, ?combined⟩⟩, fun v hv => ?filtered, ?valid, fun hm => ?forced,
    fun hm hv => ?regained, Lmc.recompute_aimed _, fun hv => ?stays, ?retargeted, ?_, ?_, ?_, ?_, ?_, ?_, ?_⟩
  case lux => rw [Lmc.storeSample_eq, Lmc.recompute_role, Lmc.measured_lux]; rfl
  case combined =>
    rw [Lmc.storeSample_eq, Lmc.recompute_e, s.lmc.measured_e r count range ho, Lmc.joined]
    cases (s.lmc.role o).lux <;> rfl
  case filtered =>
    rw [Lmc.storeSample_eq, Lmc.recompute_e] at hv
    obtain ⟨hlg, hf⟩ := s.lmc.measured_filtered r count range hv
    rw [Lmc.storeSample_eq, Lmc.recompute_lg, Lmc.recompute_f, hf]
    refine ⟨_, hlg, fun h0 => by rw [h0, logLux_zero], fun k => logLux_of_between, fun hnone => ?_, fun g hg => ?_⟩
    · rw [hnone]; rfl
    · rw [hg, ← filterStep_eq]; rfl
  case valid => rw [Lmc.storeSample_eq, Lmc.recompute_valid, Lmc.measured_valid]
  case forced => rw [Lmc.storeSample_eq, Lmc.recompute_mode, s.lmc.measured_mode_kept r count range (.inl hm), hm]
  case regained => rw [Lmc.storeSample_eq, Lmc.recompute_mode, s.lmc.measured_mode_curve r count range hm hv]
  case stays => rw [Lmc.storeSample_eq, Lmc.recompute_mode, s.lmc.measured_mode_kept r count range (.inr hv)]
  case retargeted =>
    rw [Lmc.storeSample_eq]
    exact Lmc.recomputed_of_kept (by rw [hmeasured]) (by rw [hmeasured]) (by rw [hmeasured])
  all_goals rw [honly]

end Sys2Proof.Machine
end

section
/-! LIGHT_STALE of a role runs out (R71, R76, R77): the role that is lost, the validity and the mode that are left. -/

namespace Sys2Proof.Machine

section
variable (m : Lmc)

/-- Some role is LIVE, read from either side. -/
theorem Lmc.live_or {r o : LightRole} (h : o ≠ r) : (m.front.live || m.top.live) = ((m.role r).live || (m.role o).live) := by
  cases r with
  | front => cases o with
    | front => exact absurd rfl h
    | top => rfl
  | top => cases o with
    | front => exact Bool.or_comm _ _
    | top => exact absurd rfl h

/-- Where valid turns no outside FORCED, the mode is FAIL (R78). -/
theorem Lmc.revalidate_mode_fail (hm : m.mode ≠ .forced) (hv : m.valid = true)
    (h : (m.f.isSome && (m.front.live || m.top.live)) = false) : m.revalidate.mode = .fail := by
  unfold Lmc.revalidate
  simp [h, hv, hm]

variable (r : LightRole)

/-- LMC with the role LOST and valid judged (R71, R77). -/
def Lmc.lost : Lmc := (m.setRole r { m.role r with live := false, timer := none }).revalidate

theorem Lmc.loseRole_eq : m.loseRole r = if (m.lost r).mode = m.mode then m.lost r else (m.lost r).recompute := rfl

theorem Lmc.lost_only : m.lost r = { m with
    front := (m.lost r).front, top := (m.lost r).top, valid := (m.lost r).valid, mode := (m.lost r).mode } := by
  unfold Lmc.lost
  rw [Lmc.revalidate_only, Lmc.setRole_only]

theorem Lmc.lost_role : (m.lost r).role r = { m.role r with live := false, timer := none } := by simp [Lmc.lost]

variable {r}

theorem Lmc.lost_role_ne {o : LightRole} (ho : o ≠ r) : (m.lost r).role o = m.role o := by
  simp [Lmc.lost, Lmc.role_setRole_ne _ _ ho]

/-- With one role LOST, the other alone carries valid (R77). -/
theorem Lmc.setRole_judged {o : LightRole} (ho : o ≠ r) {x : LightRecord} (hx : x.live = false) :
    ((m.setRole r x).f.isSome && ((m.setRole r x).front.live || (m.setRole r x).top.live))
      = (m.f.isSome && (m.role o).live) := by
  rw [Lmc.live_or _ ho, Lmc.role_setRole, hx, Bool.false_or, m.role_setRole_ne _ ho, Lmc.setRole_only]

theorem Lmc.lost_valid {o : LightRole} (ho : o ≠ r) : (m.lost r).valid = (m.f.isSome && (m.role o).live) :=
  (Lmc.revalidate_valid _).trans (m.setRole_judged ho rfl)

theorem Lmc.lost_mode_kept {o : LightRole} (ho : o ≠ r)
    (h : m.mode = .forced ∨ (m.f.isSome && (m.role o).live) = m.valid) : (m.lost r).mode = m.mode := by
  have honly := m.setRole_only r { m.role r with live := false, timer := none }
  refine (Lmc.revalidate_mode_kept _ ?_).trans (by rw [honly])
  rw [m.setRole_judged ho rfl, honly]
  exact h

theorem Lmc.lost_mode_fail {o : LightRole} (ho : o ≠ r) (hm : m.mode ≠ .forced) (hv : m.valid = true)
    (hdead : (m.role o).live = false) : (m.lost r).mode = .fail := by
  have honly := m.setRole_only r { m.role r with live := false, timer := none }
  refine Lmc.revalidate_mode_fail _ (by rwa [honly]) (by rwa [honly]) ?_
  rw [m.setRole_judged ho rfl, hdead, Bool.and_false]

/-- Nothing is handed to the target stage while the mode stays (R81). -/
theorem Lmc.loseRole_kept {o : LightRole} (ho : o ≠ r)
    (h : m.mode = .forced ∨ (m.f.isSome && (m.role o).live) = m.valid) : m.loseRole r = m.lost r := by
  rw [Lmc.loseRole_eq, if_pos (m.lost_mode_kept ho h)]

/-- With no role LIVE, CURVE falls to FAIL and the target is recomputed (R78, R81). -/
theorem Lmc.loseRole_fail {o : LightRole} (ho : o ≠ r) (hm : m.mode = .curve) (hv : m.valid = true)
    (hdead : (m.role o).live = false) : m.loseRole r = (m.lost r).recompute := by
  rw [Lmc.loseRole_eq, if_neg (by rw [m.lost_mode_fail ho (by simp [hm]) hv hdead, hm]; decide)]

variable (r)

theorem Lmc.loseRole_role (o : LightRole) : (m.loseRole r).role o = (m.lost r).role o := by
  rw [Lmc.loseRole_eq]
  split
  · rfl
  · exact Lmc.recompute_role _ _

theorem Lmc.loseRole_valid : (m.loseRole r).valid = (m.lost r).valid := by
  rw [Lmc.loseRole_eq]
  split
  · rfl
  · exact Lmc.recompute_valid _

/-- All that the loss of a role changes: the roles, valid, the mode, and through the mode the target (R71, R77, R81). -/
theorem Lmc.loseRole_only : m.loseRole r = { m with
    front := (m.loseRole r).front, top := (m.loseRole r).top, valid := (m.loseRole r).valid, mode := (m.loseRole r).mode
    t0 := (m.loseRole r).t0, target := (m.loseRole r).target
    curve := { m.curve with
      latch := (m.loseRole r).curve.latch, validationPending := (m.loseRole r).curve.validationPending
      consistent := (m.loseRole r).curve.consistent } } := by
  rw [Lmc.loseRole_eq]
  split
  · rw [Lmc.lost_only]
  · rw [Lmc.recompute_only, Lmc.lost_only]

end

theorem exec_lightStale {s : State} {r : LightRole} (h : (s.lmc.role r).timer.isSome = true) :
    exec (.lightStaleExpiry r) s = .next (s.lmcEnd (s.lmc.loseRole r) []) := congrArg Host.Outcome.next (if_pos h)

theorem Lmc.delivers_lightLost (m : Lmc) (r : LightRole) : Delivers m.conditions (.lightLost r) (!(m.role r).live) := by
  cases r <;> simp [Delivers, Lmc.conditions, Lmc.role]

/-- A condition that the end of an LMC event delivers is followed by its event (R139). -/
theorem State.lmcEnd_follows (s : State) {m : Lmc} {ps : List Event} {e : Event} {v : Bool} (hd : Delivers m.conditions e v)
    (hps : e ∉ ps) : ConditionFollows s (s.lmcEnd m ps) e v :=
  Told.conditionFollows (u := s.setLmc m) (.of_same rfl rfl rfl) (Ntu.onlyEvents_refl [] _) List.not_mem_nil hd hps
    (.refl _) (Ntu.onlyEvents_refl [] _) List.not_mem_nil

/-- Settles O34: the expiry ends an LMC event whose state is `Lmc.loseRole`; where the mode stays that is `Lmc.lost`, which keeps
the target, and where it falls to FAIL its recomputation. -/
theorem lightStaleLosesARole : Obligations.LightStaleLosesARole := by
  unfold Obligations.LightStaleLosesARole
  intro r o s htimer ho hlen
  refine ⟨_, exec_lightStale htimer, ?_⟩
  have hrole : ((s.lmc.loseRole r).role r) = { s.lmc.role r with live := false, timer := none } :=
    (s.lmc.loseRole_role r r).trans (s.lmc.lost_role r)
  have hlost : Delivers (s.lmc.loseRole r).conditions (.lightLost r) true := by
    have := (s.lmc.loseRole r).delivers_lightLost r
    rwa [hrole] at this
  have honly := s.lmc.loseRole_only r
  have hkept : s.lmc.mode = .forced ∨ (s.lmc.f.isSome && (s.lmc.role o).live) = s.lmc.valid →
      (s.lmc.loseRole r).mode = s.lmc.mode ∧ TargetKept s (s.lmcEnd (s.lmc.loseRole r) []) := fun h => by
    unfold TargetKept
    rw [State.lmcEnd_lmc, s.lmc.loseRole_kept ho h]
    refine ⟨s.lmc.lost_mode_kept ho h, ?_⟩
    rw [Lmc.lost_only]
    exact ⟨rfl, rfl, rfl⟩
  rw [State.lmcEnd_lmc]
  refine ⟨hrole, (s.lmc.loseRole_role r o).trans (s.lmc.lost_role_ne ho), ?_, ?_, ?_, ?_, ?_,
    (s.lmc.loseRole_valid r).trans (s.lmc.lost_valid ho), fun hdead hv hm => ?falls, fun hlive hv => ?stays,
    fun hm => ?forced, ?_, ?_, ?_, ?_, ?_, ?_, ?_,
    fun hfall => (s.lmcEnd_follows hlost List.not_mem_nil hlen).2.1 hfall rfl,
    s.lmcEnd_onlyEvents _ [], s.lmcEnd_onlyNotice _ _, s.lmcEnd_srt _ _, s.lmcEnd_rqh _ _, s.lmcEnd_ppc _ _,
    s.lmcEnd_mtm _ _, s.lmcEnd_pending _ _⟩
  case falls =>
    rw [s.lmc.loseRole_fail ho hm hv hdead]
    refine ⟨?_, Lmc.recompute_aimed _⟩
    rw [Lmc.recompute_mode, s.lmc.lost_mode_fail ho (by simp [hm]) hv hdead]
  case stays => exact hkept (.inr (by rw [hlive, Bool.and_true, hv]))
  case forced =>
    obtain ⟨hmode, htarget⟩ := hkept (.inl hm)
    exact ⟨hmode.trans hm, htarget⟩
  all_goals rw [honly]

end Sys2Proof.Machine
end

section
/-! LIGHT_SET (R68, R101, R102): the checks and clamps of its fields, their echo, and the delivery of P_BL_MAX to PPC (R62). -/

namespace Sys2Proof.Machine

/-! ### The arguments -/

section
variable (a : List Byte)

/-- The settings that the arguments of LIGHT_SET ask for, clamped (R68, R102). -/
def LightSettings.asked : LightSettings :=
  { wTop := min (u8 a 16) 16, deadBand := u8 a 17, sUp := min (u8 a 18) 7, sDown := min (u8 a 19) 7
    lightStale := u16 a 20, stepMs := u16 a 22, ru := u16 a 24, rd := u16 a 26
    pBlMax := max 1000 (min (u16 a 28) 20000), cUnatt := min (u16 a 30) 4095 }

theorem clampNat_eq {lo hi : Nat} (h : lo ≤ hi) (v : Nat) : clampNat v lo hi = max lo (min v hi) := by
  unfold clampNat
  split <;> [skip; split] <;> omega

theorem LightSettings.clamped_ofArgs : (LightSettings.ofArgs a).clamped = .asked a := by
  simp [LightSettings.clamped, LightSettings.ofArgs, LightSettings.asked, clampNat_eq]

theorem Gains.ok_ofArgs (i : Nat) : (Gains.ofArgs a i).ok = true ↔
    u16 a i ≠ 0 ∧ u16 a (i + 2) ≠ 0 ∧ u16 a (i + 4) ≠ 0 ∧ u16 a (i + 6) ≠ 0 := by
  simp [Gains.ok, Gains.ofArgs, and_assoc]

theorem LightSettings.ok_ofArgs : (LightSettings.ofArgs a).ok = true ↔
    100 ≤ u16 a 20 ∧ u16 a 20 ≤ 10000 ∧ 4 ≤ u16 a 22 ∧ u16 a 22 ≤ 1000 ∧ 1 ≤ u16 a 24 ∧ u16 a 24 ≤ 4095
      ∧ 1 ≤ u16 a 26 ∧ u16 a 26 ≤ 4095 := by
  unfold LightSettings.ok
  simp only [Bool.and_eq_true, decide_eq_true_eq, and_assoc]
  rfl

/-- The check of LIGHT_SET, gains and ranges (R68, R102). -/
def lightSetOk : Bool := (Gains.ofArgs a 0).ok && (Gains.ofArgs a 8).ok && (LightSettings.ofArgs a).ok

theorem lightSetOk_iff : lightSetOk a = true ↔ (∀ i < 8, u16 a (2 * i) ≠ 0) ∧ 100 ≤ u16 a 20 ∧ u16 a 20 ≤ 10000
    ∧ 4 ≤ u16 a 22 ∧ u16 a 22 ≤ 1000 ∧ 1 ≤ u16 a 24 ∧ u16 a 24 ≤ 4095 ∧ 1 ≤ u16 a 26 ∧ u16 a 26 ≤ 4095 := by
  have hgains : (∀ i < 8, u16 a (2 * i) ≠ 0) ↔ (Gains.ofArgs a 0).ok = true ∧ (Gains.ofArgs a 8).ok = true := by
    rw [Gains.ok_ofArgs, Gains.ok_ofArgs]
    simp only [Nat.forall_lt_succ_right, Nat.not_lt_zero, false_implies, implies_true, true_and, and_assoc]
  rw [lightSetOk, Bool.and_eq_true, Bool.and_eq_true, LightSettings.ok_ofArgs, hgains]

variable {a}

theorem Gains.bytes_ofArgs {i : Nat} (h : i + 8 ≤ a.length) : (Gains.ofArgs a i).bytes = (a.drop i).take 8 := by
  unfold Gains.bytes Gains.ofArgs
  simp only [le16_u16, take_drop_eq h]
  rfl

theorem gains_echo (h : a.length = 32) : (Gains.ofArgs a 0).bytes ++ (Gains.ofArgs a 8).bytes = a.take 16 := by
  rw [Gains.bytes_ofArgs (by omega), Gains.bytes_ofArgs (by omega), List.drop_zero, ← List.take_add]

end

/-! ### The delivery of P_BL_MAX -/

section
variable {s : State} {v : Nat}

theorem State.deliverPBlMax_same (h : v = s.ppc.pBlMax) : s.deliverPBlMax v = s := if_pos h

theorem State.deliverPBlMax_changed (h : v ≠ s.ppc.pBlMax) : s.deliverPBlMax v = s.ppcSettle { s.ppc with pBlMax := v } [] :=
  if_neg h

theorem State.deliverPBlMax_only (s : State) (v : Nat) : OnlyPower s (s.deliverPBlMax v) [] := by
  by_cases h : v = s.ppc.pBlMax
  · rw [State.deliverPBlMax_same h]
    exact ⟨⟨rfl, rfl, rfl, rfl, Lki.onlyNotice_refl _⟩, Lmc.onlyTarget_refl _, Ntu.onlyEvents_refl _ _⟩
  · rw [State.deliverPBlMax_changed h]
    exact s.ppcSettle_only _ _

theorem State.deliverPBlMax_pBlMax (s : State) (v : Nat) : (s.deliverPBlMax v).ppc.pBlMax = v := by
  by_cases h : v = s.ppc.pBlMax
  · rw [State.deliverPBlMax_same h, h]
  · rw [State.deliverPBlMax_changed h, State.ppcSettle_ppc, Ppc.settle_pBlMax]

/-- A changed P_BL_MAX settles the budget and switches nothing (R56, R62, R101). -/
theorem State.deliverPBlMax_settles (h : v ≠ s.ppc.pBlMax) : (s.deliverPBlMax v).ppc.settled
    ∧ ({ s.ppc with pBlMax := v }).onlySelection (s.deliverPBlMax v).ppc
    ∧ (s.deliverPBlMax v).ppc.packA = s.ppc.packA ∧ (s.deliverPBlMax v).ppc.packB = s.ppc.packB
    ∧ (s.deliverPBlMax v).ppc.swDc = s.ppc.swDc ∧ (s.deliverPBlMax v).ppc.bridge.switch = s.ppc.bridge.switch
    ∧ (s.deliverPBlMax v).ppc.settleTimer = s.ppc.settleTimer
    ∧ (s.ppc.safe → (s.deliverPBlMax v).ppc.bridge = s.ppc.bridge) := by
  rw [State.deliverPBlMax_changed h]
  exact ⟨s.ppcSettle_settled _ _, s.ppcSettle_onlySelection _ _, s.ppcSettle_pack _ _ .a, s.ppcSettle_pack _ _ .b,
    s.ppcSettle_swDc _ _, s.ppcSettle_switch _ _, s.ppcSettle_settleTimer _ _,
    fun hsafe => State.ppcSettle_bridge_still (p := { s.ppc with pBlMax := v }) hsafe rfl rfl []⟩

end

/-! ### The request -/

section
variable {s : State} {a : List Byte}

theorem lightSet_lengthOk (h : a.length = 32) : RequestCode.lightSet.lengthOk a = true := by
  simpa [RequestCode.lengthOk, RequestCode.argLength] using h

theorem lightSetOwner_bad (h : lightSetOk a = false) : lightSetOwner a s = ⟨s, .badField, []⟩ :=
  if_neg (by rw [← lightSetOk, h]; decide)

/-- LMC with the settings that LIGHT_SET asks for (R68, R102). -/
def Lmc.asked (m : Lmc) (a : List Byte) : Lmc := m.withSettings (.ofArgs a 0) (.ofArgs a 8) (.asked a)

/-- The state that the owner's event of LIGHT_SET leaves: LMC has stored the settings, PPC has been told P_BL_MAX (R101, R102). -/
def State.lightSet (s : State) (a : List Byte) : State :=
  (s.setLmc (s.lmc.asked a)).deliverPBlMax (LightSettings.asked a).pBlMax

theorem lightSetOwner_ok (h : lightSetOk a = true) (hlen : a.length = 32) :
    lightSetOwner a s = ⟨s.lightSet a, .ok, a.take 16 ++ (LightSettings.asked a).bytes⟩ := by
  have ho : lightSetOwner a s = Answer.ok _ _ := if_pos h
  rw [ho, LightSettings.clamped_ofArgs, gains_echo hlen]
  rfl

theorem State.lightSet_only (s : State) (a : List Byte) : OnlyPower (s.setLmc (s.lmc.asked a)) (s.lightSet a) [] :=
  State.deliverPBlMax_only _ _

theorem State.lightSet_pBlMax (s : State) (a : List Byte) : (s.lightSet a).ppc.pBlMax = (LightSettings.asked a).pBlMax :=
  State.deliverPBlMax_pBlMax _ _

/-- LIGHT_SET with P_BL_MAX as PPC holds it touches LMC alone. -/
theorem State.lightSet_same (h : (LightSettings.asked a).pBlMax = s.ppc.pBlMax) : s.lightSet a = s.setLmc (s.lmc.asked a) :=
  State.deliverPBlMax_same (s := s.setLmc (s.lmc.asked a)) h

theorem State.lightSet_changed (h : (LightSettings.asked a).pBlMax ≠ s.ppc.pBlMax) : s.lightSet a =
    (s.setLmc (s.lmc.asked a)).ppcSettle { s.ppc with pBlMax := (LightSettings.asked a).pBlMax } [] :=
  State.deliverPBlMax_changed (s := s.setLmc (s.lmc.asked a)) h

/-- The settlement of a changed P_BL_MAX delivers its C_power to the stored settings (R62, R97, R101). -/
theorem State.lightSet_delivers (h : (LightSettings.asked a).pBlMax ≠ s.ppc.pBlMax) :
    Told s (s.lightSet a) ∧ CeilingDelivered (s.lmc.asked a) s (s.lightSet a) := by
  have hquiet : LightQuiet s (s.setLmc (s.lmc.asked a)) := .of_same rfl rfl
  rw [State.lightSet_changed h]
  exact ⟨hquiet.told.trans (.ppcSettle _ _ []), hquiet.delivered_ppcSettle rfl List.not_mem_nil List.not_mem_nil⟩

variable {tag : Byte} (hs : Serving s .lightSet tag a) (hlen : a.length = 32)
include hs hlen

theorem exec_lightSet_bad (hbad : lightSetOk a = false) :
    ∃ t, exec .lightSet s = .next t ∧ Answered s t tag .badField [] ∧ OnlyReply s t := by
  exact ⟨_, rfl, s.serve_only .lightSet _ tag a _ _ hs (lightSet_lengthOk hlen) rfl (lightSetOwner_bad hbad)⟩

theorem exec_lightSet_ok (hok : lightSetOk a = true) :
    exec .lightSet s = .next ((s.lightSet a).answer tag .ok (a.take 16 ++ (LightSettings.asked a).bytes))
      ∧ Answered s ((s.lightSet a).answer tag .ok (a.take 16 ++ (LightSettings.asked a).bytes)) tag .ok
          (a.take 16 ++ (LightSettings.asked a).bytes) := by
  have ho := lightSetOwner_ok (s := s) hok hlen
  have hserve := s.serve_ok .lightSet lightSetOwner tag a hs (lightSet_lengthOk hlen) rfl
  have hans := s.serve_answered .lightSet lightSetOwner tag a hs (lightSet_lengthOk hlen) rfl
    (by rw [ho]; exact Lki.onlyNotice_replyTrail (State.deliverPBlMax_onlyNotice _ _))
    (by rw [ho]; exact State.deliverPBlMax_rqh _ _)
  rw [hserve, ho] at hans
  exact ⟨congrArg Host.Outcome.next (hserve.trans (by rw [ho])), hans⟩

end

/-- Settles O50: the check refuses the whole request; otherwise the settings are stored before PPC is told, so that what PPC's
settlement delivers meets the stored settings. -/
theorem lightSetStoresSettings : Obligations.LightSetStoresSettings := by
  unfold Obligations.LightSetStoresSettings
  intro s tag a hs hlen
  dsimp only
  rw [← lightSetOk_iff, Bool.not_eq_true]
  refine ⟨exec_lightSet_bad hs hlen, fun hok => ?_⟩
  obtain ⟨hexec, hans⟩ := exec_lightSet_ok hs hlen hok
  have honly := s.lightSet_only a
  obtain ⟨_, htarget, _⟩ := id honly
  have hset : (s.lightSet a).lmc.set = .asked a := (congrArg Lmc.set htarget :)
  have hfront : (s.lightSet a).lmc.front = (s.lmc.asked a).front := (congrArg Lmc.front htarget :)
  have htop : (s.lightSet a).lmc.top = (s.lmc.asked a).top := (congrArg Lmc.top htarget :)
  obtain ⟨hsrt, hmtm, hpend, hnorth, _, hntu⟩ := honly.reply tag .ok (a.take 16 ++ (LightSettings.asked a).bytes)
  refine ⟨_, hexec, ?_⟩
  rw [State.answer_ppc, State.answer_lmc, State.answer_ntu, hset, hfront, htop]
  refine ⟨⟨hsrt, hmtm, hpend, hnorth, by rw [State.answer_lmc]; exact Lmc.onlyTarget_refl _, hntu⟩, rfl, rfl, rfl, htarget,
    s.lightSet_pBlMax a, fun heq => ?_, fun hne => ?_, hans⟩
  · rw [State.lightSet_same heq]
    exact ⟨rfl, rfl, rfl, rfl⟩
  · obtain ⟨hsettled, hsel, hA, hB, hdc, hsw, htimer, hbridge⟩ :=
      State.deliverPBlMax_settles (s := s.setLmc (s.lmc.asked a)) hne
    obtain ⟨htold, hceil⟩ := State.lightSet_delivers hne
    exact ⟨hsettled, hsel, hA, hB, hdc, hsw, htimer, hbridge, (Settled.answer _ _ _ _).ceilingDelivered htold hceil⟩

end Sys2Proof.Machine
end

section
/-! The requests of LMC that aim the output (R86, R87, R93 to R95), and a step of O (R99): each owner ends an event of LMC at a
state that is a recomputation, or a stored curve. -/

namespace Sys2Proof.Machine

/-! ### A step of the output -/

theorem Lmc.stepOut_below {m : Lmc} (h : m.out < m.target) : m.stepOut = min m.target (m.out + m.set.ru) := if_pos h

theorem Lmc.stepOut_above {m : Lmc} (h : m.target < m.out) : m.stepOut = max m.target (m.out - m.set.rd) := by
  unfold Lmc.stepOut
  rw [if_neg (Nat.lt_asymm h), if_pos h]

theorem Lmc.stepOut_aimed {m : Lmc} (h : m.out = m.target) : m.stepOut = m.out := by simp [Lmc.stepOut, h]

/-- Settles O35, by the three cases of `Lmc.stepOut`. -/
theorem stepSlewsTheOutput : Obligations.StepSlewsTheOutput := by
  unfold Obligations.StepSlewsTheOutput
  exact fun s => ⟨_, rfl, Lmc.stepOut_below, Lmc.stepOut_above, Lmc.stepOut_aimed, rfl, rfl⟩

/-! ### The end of an LMC event, and the reply -/

/-- An event still follows its condition after whatever leaves the event alone (R139). -/
theorem ConditionFollows.later {s u t : State} {fs : List Event} {e : Event} {v : Bool} (hc : ConditionFollows s u e v)
    (h1 : Told s u) (h2 : Told u t) (hfs : u.ntu.onlyEvents fs t.ntu) (hf : e ∉ fs) : ConditionFollows s t e v :=
    fun hlen => by
  obtain ⟨hlive, hrise, hstay⟩ := hc hlen
  obtain ⟨hlatched, hlive'⟩ := Ntu.onlyEvents_other hfs (mt Event.code_mem_map.1 hf)
  rw [hlatched, hlive']
  exact ⟨hlive, fun h0 hv => (hrise h0 hv).later h1 h2, hstay⟩

/-- A request whose owner ends an event of LMC at `m`: LMC is `m`, its consistency state is delivered, and beside the reply
nothing else changes (R90, R139, R154). -/
theorem State.serve_lmcEnd {s : State} {c : RequestCode} {owner : List Byte → State → Answer} {tag : Byte}
    {a p : List Byte} {m : Lmc} (h : Serving s c tag a) (hl : c.lengthOk a = true) (hr : c.reservedSet a = false)
    (ho : owner a s = Answer.ok (s.lmcEnd m []) p) :
    (s.serve c owner).lmc = m ∧ OnlyLightReply s (s.serve c owner) ∧ FaultFollows s (s.serve c owner)
      ∧ Answered s (s.serve c owner) tag .ok p := by
  have hnotice := s.lmcEnd_onlyNotice m []
  have hans := s.serve_answered c owner tag a h hl hr (by rw [ho]; exact Lki.onlyNotice_replyTrail hnotice)
    (by rw [ho]; exact s.lmcEnd_rqh m [])
  have hserve : s.serve c owner = (s.lmcEnd m []).answer tag .ok p := by rw [s.serve_ok c owner tag a h hl hr, ho]; rfl
  have hfault := (LightQuiet.refl s).faultFollows_lmcEnd m (ps := []) List.not_mem_nil
  rw [ho] at hans
  rw [hserve] at hans ⊢
  refine ⟨by simp, ⟨by simp, by simp, by simp, by simp, ?_, ?_⟩, ?_, hans⟩
  · exact Lki.onlyNorth_trans (Lki.onlyNotice_north hnotice) (State.answer_onlyNorth _ _ _ _)
  · rw [State.answer_ntu]
    exact s.lmcEnd_onlyEvents m []
  · unfold FaultFollows at hfault ⊢
    rw [State.answer_lmc]
    exact (Settled.answer _ tag .ok p).conditionFollows (.lmcEnd s m []) hfault

theorem RequestCode.lengthOk_of_length {c : RequestCode} {a : List Byte} (hc : c ≠ .pass) (h : a.length = c.argLength) :
    c.lengthOk a = true := by
  unfold RequestCode.lengthOk
  rw [if_neg hc, h, beq_self_eq_true]

/-! ### The curve after a recomputation -/

@[simp] theorem Lmc.recompute_n (m : Lmc) : m.recompute.curve.n = m.curve.n := by rw [m.recompute_only]
@[simp] theorem Lmc.recompute_floor (m : Lmc) : m.recompute.curve.floor = m.curve.floor := by rw [m.recompute_only]
@[simp] theorem Lmc.recompute_failLevel (m : Lmc) : m.recompute.curve.failLevel = m.curve.failLevel := by rw [m.recompute_only]
@[simp] theorem Lmc.recompute_points (m : Lmc) : m.recompute.curve.points = m.curve.points := by rw [m.recompute_only]

/-- Outside CURVE the curve is not evaluated (R92). -/
theorem Lmc.recompute_curve_of_ne {m : Lmc} (h : m.mode ≠ .curve) : m.recompute.curve = m.curve := by
  obtain ⟨_, _, hfail, hforced, _⟩ := m.recompute_recomputed
  cases hm : m.mode with
  | fail => exact (hfail hm).1
  | forced => exact (hforced hm).1
  | curve => exact absurd hm h

/-- In CURVE a recomputation without a latch searches, which ends the wait for validation (R89, R90). -/
theorem Lmc.recompute_validates {m : Lmc} (hm : m.mode = .curve) (hf : m.f.isSome = true) (hlatch : m.curve.latch = none) :
    m.recompute.curve.validationPending = false := by
  obtain ⟨f, hf⟩ := Option.isSome_iff_exists.1 hf
  obtain ⟨_, _, _, _, hcurve⟩ := m.recompute_recomputed
  obtain ⟨_, ⟨_, hsearch⟩, _⟩ := hcurve hm f hf
  exact congrArg Curve.validationPending (hsearch (by simp [hlatch])).1

/-! ### CURVE_WRITE_HEADER (R86) -/

section
variable {s : State} {a : List Byte}

/-- LMC with the header that the arguments ask for (R86). -/
def Lmc.headed (m : Lmc) (a : List Byte) : Lmc :=
  { m with curve := { m.curve with
      n := u8 a 0, floor := min (u16 a 1) 4095, failLevel := min (u16 a 3) 4095, latch := none, validationPending := true } }

theorem curveHeaderOwner_bad (h : u8 a 0 < 2 ∨ 16 < u8 a 0) : curveHeaderOwner a s = ⟨s, .badField, []⟩ :=
  if_pos (by simpa using h)

theorem curveHeaderOwner_ok (h2 : 2 ≤ u8 a 0) (h16 : u8 a 0 ≤ 16) : curveHeaderOwner a s =
    Answer.ok (s.lmcEnd (s.lmc.headed a).recompute [])
      ([a.getD 0 0#8] ++ le16 (min (u16 a 1) 4095) ++ le16 (min (u16 a 3) 4095)) := by
  have howner : curveHeaderOwner a s = Answer.ok
      (s.lmcEnd { s.lmc with
        curve := s.lmc.curve.withHeader (u8 a 0) (clampNat (u16 a 1) 0 4095) (clampNat (u16 a 3) 0 4095) }.recompute [])
      (b8 (u8 a 0) ++ le16 (clampNat (u16 a 1) 0 4095) ++ le16 (clampNat (u16 a 3) 0 4095)) :=
    if_neg (by simp only [Bool.or_eq_true, decide_eq_true_eq]; omega)
  rw [howner, b8_u8]
  simp only [clampNat_eq (Nat.zero_le 4095), Nat.zero_max]
  rfl

end

/-! ### CURVE_WRITE_POINT (R87) -/

/-- The curve with point `j` stored and waiting for validation (R87). -/
def Curve.stored (c : Curve) (j : Nat) (pt : CurvePoint) : Curve :=
  { c with points := c.points.set j pt, validationPending := true }

section
variable {m : Lmc} {j : Nat} (pt : CurvePoint)

theorem Curve.touchesLatch_iff (c : Curve) (j : Nat) :
    c.touchesLatch j = true ↔ ∃ i, c.latch = some i ∧ (j = i ∨ j = i + 1) := by
  simp [Curve.touchesLatch, Option.any_eq_true]

/-- A point of the latched segment drops the latch and recomputes. -/
theorem Lmc.writePoint_touched {i : Nat} (h : m.curve.latch = some i) (hj : j = i ∨ j = i + 1) :
    m.writePoint j pt = { m with curve := { m.curve.stored j pt with latch := none } }.recompute :=
  if_pos ((m.curve.touchesLatch_iff j).2 ⟨i, h, hj⟩)

/-- Without a latch a point in use recomputes. -/
theorem Lmc.writePoint_used (h : m.curve.latch = none) (hj : j < m.curve.n) :
    m.writePoint j pt = { m with curve := m.curve.stored j pt }.recompute := by
  unfold Lmc.writePoint
  rw [if_neg (by simp [Curve.touchesLatch_iff, h]), if_pos (by simp [h, hj])]
  rfl

/-- Any other point is only stored. -/
theorem Lmc.writePoint_apart
    (h : (∃ i, m.curve.latch = some i ∧ j ≠ i ∧ j ≠ i + 1) ∨ m.curve.latch = none ∧ m.curve.n ≤ j) :
    m.writePoint j pt = { m with curve := m.curve.stored j pt } := by
  unfold Lmc.writePoint
  rcases h with ⟨i, hi, hj⟩ | ⟨hnone, hj⟩
  · rw [if_neg (by simpa [Curve.touchesLatch_iff, hi] using hj), if_neg (by simp [hi])]
    rfl
  · rw [if_neg (by simp [Curve.touchesLatch_iff, hnone]), if_neg (by simp [hj])]
    rfl

variable (m j)

/-- All that a point write changes, whether it recomputes or not (R87). -/
theorem Lmc.writePoint_only : m.writePoint j pt = { m with
    t0 := (m.writePoint j pt).t0, target := (m.writePoint j pt).target
    curve := { m.curve.stored j pt with
      latch := (m.writePoint j pt).curve.latch, validationPending := (m.writePoint j pt).curve.validationPending
      consistent := (m.writePoint j pt).curve.consistent } } := by
  unfold Lmc.writePoint
  dsimp only
  split
  · rw [Lmc.recompute_only]; rfl
  · split
    · rw [Lmc.recompute_only]; rfl
    · rfl

end

section
variable {s : State} {a : List Byte}

theorem curvePointOwner_bad (h : 15 < u8 a 0) : curvePointOwner a s = ⟨s, .badIndex, []⟩ := if_pos h

theorem curvePointOwner_ok (h : u8 a 0 ≤ 15) : curvePointOwner a s =
    Answer.ok (s.lmcEnd (s.lmc.writePoint (u8 a 0) ⟨min (u16 a 1) 4607, min (u16 a 3) 4095⟩) [])
      ([a.getD 0 0#8] ++ le16 (min (u16 a 1) 4607) ++ le16 (min (u16 a 3) 4095)) := by
  rw [← b8_u8]
  exact if_neg (not_lt.2 h)

end

/-- Settles O51: a header write leaves the recomputation of `Lmc.headed`, a point write `Lmc.writePoint`, whose three cases are
those of R87; what a recomputation does is said by `Lmc.recompute_recomputed` and `Lmc.recompute_aimed`. -/
theorem curveWritesStorePoints : Obligations.CurveWritesStorePoints := by
  unfold Obligations.CurveWritesStorePoints
  intro s tag a hlen
  have hheader := RequestCode.lengthOk_of_length (c := .curveWriteHeader) (by decide) hlen
  have hpoint := RequestCode.lengthOk_of_length (c := .curveWritePoint) (by decide) hlen
  refine ⟨fun hs => ⟨fun hbad => ?headerRefused, fun h2 h16 => ?headerStored⟩,
    fun hs => ⟨fun hbad => ?pointRefused, fun h15 => ?pointStored⟩⟩
  case headerRefused =>
    exact ⟨_, rfl, s.serve_only .curveWriteHeader _ tag a _ _ hs hheader rfl (curveHeaderOwner_bad hbad)⟩
  case pointRefused =>
    exact ⟨_, rfl, s.serve_only .curveWritePoint _ tag a _ _ hs hpoint rfl (curvePointOwner_bad hbad)⟩
  case headerStored =>
    obtain ⟨hlmc, honly, hfault, hans⟩ := State.serve_lmcEnd hs hheader rfl (curveHeaderOwner_ok h2 h16)
    refine ⟨_, rfl, honly, ?_⟩
    rw [hlmc]
    simp only [Lmc.recompute_n, Lmc.recompute_floor, Lmc.recompute_failLevel, Lmc.recompute_points, Lmc.recompute_out,
      Lmc.recompute_mode, Lmc.recompute_cPower]
    refine ⟨rfl, rfl, rfl, rfl, Lmc.recompute_aimed _, rfl, rfl, ?_, rfl, fun hm => ?_,
      fun hm hf => Lmc.recompute_validates hm hf rfl, Lmc.recompute_recomputed _, hfault, hans⟩
    · unfold Lmc.onlyTarget
      rw [Lmc.recompute_only]
      rfl
    · rw [Lmc.recompute_curve_of_ne (m := s.lmc.headed a) hm]
      exact ⟨rfl, rfl⟩
  case pointStored =>
    obtain ⟨hlmc, honly, hfault, hans⟩ := State.serve_lmcEnd hs hpoint rfl (curvePointOwner_ok h15)
    refine ⟨_, rfl, honly, ?_⟩
    rw [hlmc]
    generalize u8 a 0 = j at *
    have hwrite := s.lmc.writePoint_only j ⟨min (u16 a 1) 4607, min (u16 a 3) 4095⟩
    have hpoints : (s.lmc.writePoint j ⟨min (u16 a 1) 4607, min (u16 a 3) 4095⟩).curve.points
        = s.lmc.curve.points.set j ⟨min (u16 a 1) 4607, min (u16 a 3) 4095⟩ := by rw [hwrite]; rfl
    rw [hpoints]
    refine ⟨rfl, ?n, ?floor, ?failLevel, ?out, ?mode, ?frame, ?cPower,
      ⟨fun i hi hj => ?touched, fun hnone hj => ?used⟩, hfault, fun h => s.lmc.writePoint_apart _ h, hans⟩
    case touched =>
      rw [Lmc.writePoint_touched _ hi hj]
      exact ⟨Lmc.recompute_recomputed _, Lmc.recompute_aimed _, fun hm =>
        congrArg Curve.latch (Lmc.recompute_curve_of_ne (by exact hm))⟩
    case used =>
      rw [Lmc.writePoint_used _ hnone hj]
      exact ⟨Lmc.recompute_recomputed _, Lmc.recompute_aimed _⟩
    case out | mode | cPower => rw [hwrite]
    all_goals rw [hwrite]; rfl

/-! ### BL_BIAS, BL_FORCE and BL_RELEASE (R93 to R95) -/

theorem clampInt_eq {lo hi : Int} (h : lo ≤ hi) (v : Int) : clampInt v lo hi = max lo (min v hi) := by
  unfold clampInt
  split <;> [skip; split] <;> omega

section
variable {s : State} {a : List Byte}

theorem blBiasOwner_eq : blBiasOwner a s =
    Answer.ok (s.lmcEnd { s.lmc with bias := max (-1024) (min (s16 a 0) 1023) }.recompute [])
      (sle16 (max (-1024) (min (s16 a 0) 1023))) := by
  unfold blBiasOwner
  rw [clampInt_eq (by decide)]

theorem blForceOwner_eq : blForceOwner a s =
    Answer.ok (s.lmcEnd { s.lmc with forced := some (min (u16 a 0) 4095), mode := .forced }.recompute [])
      (le16 (min (u16 a 0) 4095)) := by
  unfold blForceOwner
  rw [clampNat_eq (Nat.zero_le _), Nat.zero_max]

theorem blReleaseOwner_refused (h : s.lmc.mode ≠ .forced) : blReleaseOwner a s = ⟨s, .refused, [6#8]⟩ := if_neg h

theorem blReleaseOwner_ok (h : s.lmc.mode = .forced) : blReleaseOwner a s =
    Answer.ok (s.lmcEnd { s.lmc with forced := none, mode := if s.lmc.valid then .curve else .fail }.recompute [])
      [if s.lmc.valid then 0#8 else 1#8] := by
  refine (if_pos h).trans (congrArg (Answer.ok _) ?_)
  cases s.lmc.valid <;> rfl

end

/-- Settles O52: each owner recomputes LMC with the value stored, and a recomputation moves no O. -/
theorem backlightRequestsAim : Obligations.BacklightRequestsAim := by
  unfold Obligations.BacklightRequestsAim
  intro s tag a
  refine ⟨fun hs hlen => ?bias, fun hs hlen => ?force, fun hs hm => ?refused, fun hs hm => ?release⟩
  case bias =>
    obtain ⟨hlmc, honly, hfault, hans⟩ :=
      State.serve_lmcEnd hs (RequestCode.lengthOk_of_length (by decide) hlen) rfl blBiasOwner_eq
    refine ⟨_, rfl, honly, ?_⟩
    rw [hlmc, Lmc.recompute_bias, Lmc.recompute_out]
    exact ⟨rfl, Lmc.recompute_aimed _, Lmc.recompute_recomputed _, hfault, Lmc.recompute_onlyTarget _, rfl, hans⟩
  case force =>
    obtain ⟨hlmc, honly, _, hans⟩ :=
      State.serve_lmcEnd hs (RequestCode.lengthOk_of_length (by decide) hlen) rfl blForceOwner_eq
    refine ⟨_, rfl, honly, ?_⟩
    rw [hlmc, Lmc.recompute_forced, Lmc.recompute_mode, Lmc.recompute_out]
    exact ⟨rfl, rfl, Lmc.recompute_aimed _, Lmc.recompute_curve_of_ne (by simp), Lmc.recompute_onlyTarget _, rfl, hans⟩
  case refused => exact ⟨_, rfl, s.serve_only .blRelease _ tag [] _ _ hs rfl rfl (blReleaseOwner_refused hm)⟩
  case release =>
    obtain ⟨hlmc, honly, hfault, hans⟩ := State.serve_lmcEnd hs rfl rfl (blReleaseOwner_ok hm)
    refine ⟨_, rfl, honly, ?_⟩
    rw [hlmc, Lmc.recompute_forced, Lmc.recompute_mode, Lmc.recompute_out]
    exact ⟨rfl, rfl, Lmc.recompute_aimed _, Lmc.recompute_recomputed _, hfault, Lmc.recompute_onlyTarget _, rfl, hans⟩

end Sys2Proof.Machine
end

section
/-! The two changes of regime (R98, R165, R168): the silence timer runs out, and a valid REQUEST frame restores the regime and
brings its request, which is admitted, answered BUSY or counted (R150, R164). -/

namespace Sys2Proof.Machine

/-! ### The silence timer runs out -/

/-- A regime turned UNATTENDED cuts O to C_unatt as a delivered ceiling does (R98). -/
theorem State.deliverRegime_unattended (s : State) : s.deliverRegime .unattended =
    (s.setPpc { s.ppc with regime := .unattended }).lmcCut { s.lmc with regime := .unattended }.recompute s.lmc.set.cUnatt := by
  unfold State.deliverRegime
  rw [if_pos rfl, Lmc.recompute_set]

/-- Settles O17: the expiry is a change of LKI, which LMC's events do not see, and a cut of the recomputed LMC. -/
theorem silenceMakesUnattended : Obligations.SilenceMakesUnattended := by
  unfold Obligations.SilenceMakesUnattended
  intro s htimer hlen
  have hexec : exec .silenceTimeoutExpiry s
      = .next ((s.setLki { s.lki with silenceTimer := none, regime := .unattended }).deliverRegime .unattended) :=
    congrArg Host.Outcome.next (if_pos htimer)
  refine ⟨_, hexec, ?_⟩
  generalize hu : s.setLki { s.lki with silenceTimer := none, regime := .unattended } = u
  have hlmcU : u.lmc = s.lmc := by rw [← hu]; rfl
  have hquiet : LightQuiet s (u.setPpc { u.ppc with regime := .unattended }) := by
    rw [← hu]
    exact .of_events (.of_same rfl rfl rfl) (Ntu.onlyEvents_refl [] _) List.not_mem_nil List.not_mem_nil
  have hlmc : (u.deliverRegime .unattended).lmc = { { s.lmc with regime := .unattended }.recompute with
      out := min s.lmc.out s.lmc.set.cUnatt } := by rw [State.deliverRegime_lmc, hlmcU, if_pos rfl]
  have hrecomputed := Lmc.recompute_recomputed
    { s.lmc with regime := .unattended, out := min s.lmc.out s.lmc.set.cUnatt }
  rw [Lmc.recompute_setOut { s.lmc with regime := .unattended }] at hrecomputed
  refine ⟨?lki, ?ppc, ?frame, ?out, ?recomputed, ?fault, ?underUnatt, ?underPower, fun hcut => ?cut, ?events,
    ?srt, ?rqh, ?mtm, ?pending⟩
  case lki => rw [← hu]; exact State.deliverRegime_onlyNotice _ _
  case ppc => rw [State.deliverRegime_ppc, ← hu]; rfl
  case frame =>
    rw [hlmc]
    exact Lmc.onlyTarget_trans (Lmc.recompute_onlyTarget _) rfl
  case out => rw [hlmc]
  case recomputed => rw [hlmc]; exact hrecomputed
  case fault => rw [State.deliverRegime_unattended]; exact hquiet.faultFollows_lmcCut _ _
  case underUnatt => rw [hlmc]; exact Lmc.recompute_target_unattended { s.lmc with regime := .unattended } rfl
  case underPower => rw [hlmc]; exact Lmc.recompute_target_le { s.lmc with regime := .unattended }
  case cut =>
    rw [State.deliverRegime_unattended, hlmcU]
    exact hquiet.occurred_lmcCut hlen (by rwa [Lmc.recompute_out])
  case events =>
    have hevents := u.deliverRegime_onlyEvents .unattended
    rwa [← hu] at hevents ⊢
  all_goals simp [← hu]

/-! ### A valid frame restores the regime -/

/-- The return to ATTENDED is delivered to PPC, and LMC recomputes its target (R98, R165). -/
theorem State.attend_unattended {s : State} (h : s.lki.regime = .unattended) : s.attend =
    ((s.setLki { s.lki with regime := .attended }).setPpc { s.ppc with regime := .attended }).lmcEnd
      { s.lmc with regime := .attended }.recompute [] :=
  if_pos h

theorem Told.attend (s : State) : Told s s.attend := by
  cases h : s.lki.regime with
  | attended => rw [s.attend_attended h]; exact .refl s
  | unattended =>
    rw [State.attend_unattended h]
    exact Told.trans (u := (s.setLki { s.lki with regime := .attended }).setPpc { s.ppc with regime := .attended })
      (.of_same rfl rfl rfl) (.lmcEnd _ _ _)

theorem State.attend_onlyEvents (s : State) : s.ntu.onlyEvents lightConditions s.attend.ntu := by
  cases h : s.lki.regime with
  | attended => rw [s.attend_attended h]; exact Ntu.onlyEvents_refl _ _
  | unattended =>
    rw [State.attend_unattended h]
    exact State.lmcEnd_onlyEvents _ _ []

/-- LKI with the receiver hunting again and the silence timer restarted (R164, R165). -/
def Lki.heard (l : Lki) : Lki :=
  { l with
    rx := .hunting
    silenceTimer := if l.silenceTimeout = 0 then l.silenceTimer else some (l.silenceTimeout * 100) }

theorem Lki.heard_eq (l : Lki) : ({ l with rx := .hunting } : Lki).restartSilence = l.heard := Lki.restartSilence_eq _

/-- The part after the first two steps of R165, before the request comes to admission. -/
def State.heard (s : State) : State := (s.setLki s.lki.heard).attend

/-- A valid frame is heard, and its request comes to admission (R165). -/
theorem exec_validFrame (s : State) {f : WireFrame} (h : uplinkValid f = true) :
    exec (.requestFrameReceived f) s = .next (s.heard.admitRequest (requestOf f.body)) :=
  congrArg Host.Outcome.next ((if_pos h).trans (by rw [State.heard, ← Lki.heard_eq]; rfl))

section
variable (s : State)

@[simp] theorem State.heard_srt : s.heard.srt = s.srt := by simp [State.heard]
@[simp] theorem State.heard_rqh : s.heard.rqh = s.rqh := by simp [State.heard]
@[simp] theorem State.heard_mtm : s.heard.mtm = s.mtm := by simp [State.heard]

/-- LKI after a valid frame, but for a NOTICE (R165). -/
theorem State.heard_lki : ({ s.lki.heard with regime := .attended }).onlyNotice s.heard.lki :=
  State.attend_lki (s.setLki s.lki.heard)

theorem State.heard_replyTrail : s.heard.lki.replyTrail = s.lki.replyTrail := (Lki.onlyNotice_replyTrail s.heard_lki :)
theorem State.heard_stream : s.heard.lki.stream = s.lki.stream := (Lki.onlyNotice_stream s.heard_lki :)
theorem State.heard_linkErrors : s.heard.lki.linkErrors = s.lki.linkErrors := (Lki.onlyNotice_linkErrors s.heard_lki :)
theorem State.heard_busyCount : s.heard.lki.busyCount = s.lki.busyCount := by
  unfold Lki.busyCount
  rw [State.heard_stream]

theorem Told.heard : Told s s.heard :=
  Told.trans (u := s.setLki s.lki.heard) (.of_same rfl rfl rfl) (.attend _)

theorem State.heard_onlyEvents : s.ntu.onlyEvents lightConditions s.heard.ntu := State.attend_onlyEvents _

variable {s}

/-- In ATTENDED nothing is delivered (R165). -/
theorem State.heard_attended (h : s.lki.regime = .attended) :
    s.heard.ppc = s.ppc ∧ s.heard.lmc = s.lmc ∧ s.heard.ntu = s.ntu := by
  unfold State.heard
  rw [State.attend_attended (s.setLki s.lki.heard) h]
  exact ⟨rfl, rfl, rfl⟩

/-- A regime restored reaches PPC and LMC (R96, R98). -/
theorem State.heard_unattended (h : s.lki.regime = .unattended) : s.heard.ppc = { s.ppc with regime := .attended }
    ∧ ({ s.lmc with regime := .attended } : Lmc).Recomputed s.heard.lmc ∧ FaultFollows s s.heard := by
  have hquiet : LightQuiet s (((s.setLki s.lki.heard).setLki { s.lki.heard with regime := .attended }).setPpc
      { s.ppc with regime := .attended }) :=
    .of_events (.of_same rfl rfl rfl) (Ntu.onlyEvents_refl [] _) List.not_mem_nil List.not_mem_nil
  unfold State.heard
  rw [State.attend_unattended (s := s.setLki s.lki.heard) h, State.lmcEnd_ppc, State.lmcEnd_lmc]
  exact ⟨rfl, Lmc.recompute_recomputed _, hquiet.faultFollows_lmcEnd _ List.not_mem_nil⟩

end

/-! ### The admission -/

section
variable {s : State} {r : Request}

/-- A request finds room in the queue (R150). -/
theorem State.admitRequest_room (h : s.rqh.queue.length < 8) :
    s.admitRequest r = (s.setRqh { s.rqh with queue := s.rqh.queue ++ [r] }).pump := if_pos h

/-- The queue is full, the busy list is not (R150). -/
theorem State.admitRequest_busy (h : 8 ≤ s.rqh.queue.length) (hb : s.lki.busyCount < 8) :
    s.admitRequest r = (s.setLki (s.lki.place (.busy r.tag))).pump := (if_neg (not_lt.2 h)).trans (if_pos hb)

/-- Both are full (R150). -/
theorem State.admitRequest_full (h : 8 ≤ s.rqh.queue.length) (hb : 8 ≤ s.lki.busyCount) : s.admitRequest r = s.linkError :=
  (if_neg (not_lt.2 h)).trans (if_neg (not_lt.2 hb))

theorem Told.linkError (s : State) : Told s s.linkError :=
  Told.trans (u := s.setLki { s.lki with linkErrors := satInc s.lki.linkErrors }) (.of_same rfl rfl rfl) (.raise _ _ _)

theorem State.linkError_onlyEvents (s : State) : s.ntu.onlyEvents [.linkError] s.linkError.ntu :=
  State.raise_onlyEvents (s.setLki { s.lki with linkErrors := satInc s.lki.linkErrors }) [.linkError] []

/-- An admission either leaves the event table alone or counts a link error. -/
theorem State.admitRequest_told (s : State) (r : Request) :
    Told s (s.admitRequest r) ∧ s.ntu.onlyEvents [.linkError] (s.admitRequest r).ntu := by
  rcases Nat.lt_or_ge s.rqh.queue.length 8 with hq | hq
  · rw [State.admitRequest_room hq]
    exact ⟨Told.trans (u := s.setRqh { s.rqh with queue := s.rqh.queue ++ [r] }) (.of_same rfl rfl rfl) (.pump _),
      by simpa using Ntu.onlyEvents_refl _ _⟩
  · rcases Nat.lt_or_ge s.lki.busyCount 8 with hb | hb
    · rw [State.admitRequest_busy hq hb]
      exact ⟨Told.trans (u := s.setLki (s.lki.place (.busy r.tag))) (.of_same rfl rfl rfl) (.pump _),
        by simpa using Ntu.onlyEvents_refl _ _⟩
    · rw [State.admitRequest_full hq hb]
      exact ⟨.linkError s, s.linkError_onlyEvents⟩

/-- What an admission never touches of LKI. -/
theorem State.admitRequest_keepsLki (s : State) (r : Request) : (s.admitRequest r).lki.rx = s.lki.rx
    ∧ (s.admitRequest r).lki.regime = s.lki.regime ∧ (s.admitRequest r).lki.silenceTimeout = s.lki.silenceTimeout
    ∧ (s.admitRequest r).lki.silenceTimer = s.lki.silenceTimer ∧ (s.admitRequest r).lki.ports = s.lki.ports := by
  rw [State.admitRequest_lki]
  split
  · simp
  · split
    · simp [Lki.place]
    · simp [State.linkError]

/-- With nothing before it a request is taken in the event that brings it, a RESTART too (R152, R163). -/
theorem State.pump_first {s : State} {r : Request} (hp : s.rqh.inProgress = none) (hq : s.rqh.queue = [r])
    (hstream : s.lki.stream = []) : s.pump.rqh.inProgress = some r ∧ s.pump.rqh.queue = [] := by
  have hempty : s.lki.transmit.stream = [] := by
    rcases s.lki.transmit_cases with ⟨_, h⟩ | ⟨_, _, _, h⟩ | ⟨_, _, _, _, hs, _⟩ | ⟨_, _, _, _, _, _, h⟩
      | ⟨_, _, _, _, h⟩
    case inr.inr.inl => rw [hstream] at hs; cases hs
    all_goals simpa [h] using hstream
  have hcount : s.lki.transmit.replyCount = 0 := by rw [Lki.replyCount, hempty]; rfl
  simp [State.pump, State.takeRequest, hp, hq, hempty, hcount, Config.replyPlaces]

end

/-! ### The frame -/

/-- What a valid frame leaves, whatever becomes of its request: the receiver hunts, the silence timer has restarted, the regime is
ATTENDED and, where it was not, restored at PPC and LMC (R96, R98, R165). -/
structure Attended (s t : State) : Prop where
  rx : t.lki.rx = .hunting
  regime : t.lki.regime = .attended
  silenceTimer : t.lki.silenceTimer
    = if s.lki.silenceTimeout = 0 then s.lki.silenceTimer else some (s.lki.silenceTimeout * 100)
  silenceTimeout : t.lki.silenceTimeout = s.lki.silenceTimeout
  ports : t.lki.ports = s.lki.ports
  restored : s.lki.regime = .unattended → t.ppc = { s.ppc with regime := .attended }
    ∧ ({ s.lmc with regime := .attended } : Lmc).Recomputed t.lmc ∧ FaultFollows s t
  kept : s.lki.regime = .attended → t.ppc = s.ppc ∧ t.lmc = s.lmc
  events : s.ntu.onlyEvents (.linkError :: lightConditions) t.ntu
  srt : t.srt = s.srt
  mtm : t.mtm = s.mtm

theorem Attended.of_admitted (s : State) (r : Request) : Attended s (s.heard.admitRequest r) := by
  obtain ⟨hrx, hregime, htimeout, htimer, hports⟩ := s.heard.admitRequest_keepsLki r
  obtain ⟨htold, hevents⟩ := s.heard.admitRequest_told r
  have hlki := s.heard_lki
  exact {
    rx := hrx.trans (Lki.onlyNotice_rx hlki)
    regime := hregime.trans (Lki.onlyNotice_regime hlki)
    silenceTimer := htimer.trans (Lki.onlyNotice_silenceTimer hlki)
    silenceTimeout := htimeout.trans (Lki.onlyNotice_silenceTimeout hlki :)
    ports := hports.trans (Lki.onlyNotice_ports hlki :)
    restored := fun h => by
      obtain ⟨hppc, hlmc, hfault⟩ := State.heard_unattended h
      unfold FaultFollows at hfault ⊢
      rw [State.admitRequest_ppc, State.admitRequest_lmc]
      exact ⟨hppc, hlmc, ConditionFollows.later hfault (Told.heard s) htold hevents (by simp)⟩
    kept := fun h => by
      obtain ⟨hppc, hlmc, _⟩ := State.heard_attended h
      rw [State.admitRequest_ppc, State.admitRequest_lmc]
      exact ⟨hppc, hlmc⟩
    events := Ntu.onlyEvents_trans (Ntu.onlyEvents_mono s.heard_onlyEvents fun _ => List.mem_cons_of_mem _)
      (Ntu.onlyEvents_mono hevents (by simp))
    srt := by simp
    mtm := by simp }

/-- Settles O14: whatever becomes of the request the frame is heard (`Attended.of_admitted`); the three outcomes of the admission
then say what the queues and the event table hold. -/
theorem requestsAreAdmitted : Obligations.RequestsAreAdmitted := by
  unfold Obligations.RequestsAreAdmitted
  refine ⟨fun f s hf hq => ⟨_, exec_validFrame s hf, ?room⟩, fun f s hf hq hlen => ⟨_, exec_validFrame s hf, ?full⟩⟩
  case room =>
    have hat := Attended.of_admitted s (requestOf f.body)
    have hroom := s.heard.admitRequest_room (r := requestOf f.body) (by rwa [State.heard_rqh])
    rw [State.heard_rqh] at hroom
    rw [hroom] at hat ⊢
    generalize hu : s.heard.setRqh { s.rqh with queue := s.rqh.queue ++ [requestOf f.body] } = u at *
    have hrqh : u.rqh = { s.rqh with queue := s.rqh.queue ++ [requestOf f.body] } := by rw [← hu]; rfl
    have hlki : u.lki = s.heard.lki := by rw [← hu]; rfl
    have hntu : u.ntu = s.heard.ntu := by rw [← hu]; rfl
    refine ⟨?waiting, ?phase, State.takeRequest_headWaits _, fun hp => ?inProgress, fun hp ht => ?taken,
      fun hp hnil hs => ?first, hat.rx, hat.regime, hat.silenceTimer, ?errors, hat.silenceTimeout, hat.ports, ?replies,
      hat.restored, fun h => ?kept, ?events, hat.srt, hat.mtm⟩
    case waiting => rw [State.pump_waiting, hrqh]; exact (List.append_assoc _ _ _).symm
    case phase => simp [hrqh]
    case inProgress =>
      unfold State.pump
      rw [State.takeRequest_busy _ (by simpa [hrqh] using hp)]
      simp [hrqh]
    case taken =>
      have := State.takeRequest_takenIn (u.setLki u.lki.transmit) (by simpa [hrqh] using hp) ht
      exact this.trans (by simp [hrqh])
    case first =>
      exact u.pump_first (by simpa [hrqh] using hp) (by simp [hrqh, hnil]) (by rw [hlki, State.heard_stream, hs])
    case errors => rw [State.pump_lki, Lki.transmit_linkErrors, hlki, State.heard_linkErrors]
    case replies => rw [State.pump_lki, Lki.transmit_replyTrail, hlki, State.heard_replyTrail]
    case kept =>
      obtain ⟨hppc, hlmc⟩ := hat.kept h
      obtain ⟨_, _, hsame⟩ := State.heard_attended h
      exact ⟨hppc, hlmc, by rw [State.pump_ntu, hntu, hsame]⟩
    case events =>
      rw [State.pump_ntu, hntu]
      exact s.heard_onlyEvents
  case full =>
    have hat := Attended.of_admitted s (requestOf f.body)
    have hq' : 8 ≤ s.heard.rqh.queue.length := by rwa [State.heard_rqh]
    have hwaiting : (s.heard.admitRequest (requestOf f.body)).rqh.waiting = s.rqh.waiting := by
      rw [State.admitRequest_waiting, if_neg (by exact not_lt.2 hq'), State.heard_rqh]
    refine ⟨hwaiting, hat.regime, hat.rx, hat.silenceTimeout, hat.silenceTimer, hat.restored, hat.kept, fun hb => ?busy,
      fun hb => ?error, hat.events, fun hb => ?events, hat.srt, hat.mtm, hat.ports⟩
    case busy =>
      rw [State.admitRequest_busy hq' (by rwa [State.heard_busyCount])]
      refine ⟨?_, ?_, State.takeRequest_headWaits _⟩
      · rw [State.pump_lki, Lki.transmit_linkErrors]
        exact s.heard_linkErrors
      · rw [State.pump_lki, Lki.transmit_replyTrail, State.setLki_lki, Lki.place_replyTrail, State.heard_replyTrail]
        rfl
    case error =>
      rw [State.admitRequest_full hq' (by rwa [State.heard_busyCount])]
      refine ⟨?_, ?_, ?_⟩
      · rw [State.linkError, State.raise_replyTrail, State.setLki_lki]
        exact s.heard_replyTrail
      · rw [State.linkError_linkErrors, State.heard_linkErrors]
        rfl
      · exact Told.occurred_of_pulse (s.heard.setLki { s.heard.lki with linkErrors := satInc s.heard.lki.linkErrors }) []
          ((Told.heard s).trans (.of_same rfl rfl rfl)) hlen (List.mem_singleton_self _) (.refl _)
    case events =>
      rw [State.admitRequest_busy hq' (by rwa [State.heard_busyCount]), State.pump_ntu]
      exact s.heard_onlyEvents

end Sys2Proof.Machine
end

section
/-! The drop ring by its newest record (R111, R125, R128, R130, R131): the numbers in a row, the record that is open, and the
invariant of MTM in these terms. -/

namespace Sys2Proof.Machine

/-! ### Numbers in a row -/

/-- The numbers follow one another, modulo 65536, and end just below `next`. -/
def Consecutive : List Nat → Nat → Prop
  | [], _ => True
  | n :: rest, next => n < 65536 ∧ (n + (rest.length + 1)) % 65536 = next ∧ Consecutive rest next

theorem consecutive_iff (l : List Nat) (next : Nat) :
    Consecutive l next ↔ ∀ i n : Nat, l[i]? = some n → n < 65536 ∧ (n + (l.length - i)) % 65536 = next := by
  induction l with
  | nil => simp [Consecutive]
  | cons n rest ih =>
    rw [Consecutive, ih]
    constructor
    · rintro ⟨hn, hnext, hrest⟩ i k hk
      cases i with
      | zero =>
        obtain rfl : n = k := by simpa using hk
        exact ⟨hn, hnext⟩
      | succ i =>
        have := hrest i k (by simpa using hk)
        rwa [List.length_cons, Nat.add_sub_add_right]
    · intro h
      have hn := h 0 n rfl
      refine ⟨hn.1, hn.2, fun i k hk => ?_⟩
      have := h (i + 1) k (by simpa using hk)
      rwa [List.length_cons, Nat.add_sub_add_right] at this

theorem Consecutive.of_append {l l' : List Nat} {next : Nat} (h : Consecutive (l ++ l') next) : Consecutive l' next := by
  induction l with
  | nil => exact h
  | cons n rest ih => exact ih h.2.2

theorem Consecutive.drop {l : List Nat} {next : Nat} (h : Consecutive l next) (k : Nat) : Consecutive (l.drop k) next :=
  Consecutive.of_append (l := l.take k) (by rwa [List.take_append_drop])

/-- The next number at the tail keeps the row (R131). -/
theorem Consecutive.push {l : List Nat} {next : Nat} (h : Consecutive l next) (hn : next < 65536) :
    Consecutive (l ++ [next]) ((next + 1) % 65536) := by
  induction l with
  | nil => exact ⟨hn, rfl, trivial⟩
  | cons n rest ih =>
    obtain ⟨hlt, hnext, hrest⟩ := h
    refine ⟨hlt, ?_, ih hrest⟩
    have hlen : (rest ++ [next]).length = rest.length + 1 := by simp
    show (n + ((rest ++ [next]).length + 1)) % 65536 = _
    omega

/-! ### The newest record -/

/-- The fields of a record stay within their places, and a lead count stands exactly beside a peak (R115, R125, R128). -/
structure DropRecord.Fits (r : DropRecord) : Prop where
  capture : r.capture.length ≤ 16
  bounces : r.bounces ≤ 15
  lead : r.peak.isSome = r.lead.isSome

/-- What a record has from its opening and no sample changes: its number, its source, its swap mark and the dislodged set (R126,
R129, R131). -/
def DropRecord.origin (r : DropRecord) : Nat × Source × Bool × Bool × Bool :=
  (r.seq, r.source, r.swapInProgress, r.dislodgedA, r.dislodgedB)

theorem DropRecord.origin_seq {r r' : DropRecord} (h : r'.origin = r.origin) : r'.seq = r.seq := congrArg Prod.fst h

/-- No record is open. -/
def Closed (ring : List DropRecord) : Prop := ∀ r ∈ ring, r.isOpen = false

/-- The newest record `r` of the ring is open, and the older ones are closed (R130). -/
structure Mtm.Records (m : Mtm) (older : List DropRecord) (r : DropRecord) : Prop where
  ring : m.ring = older ++ [r]
  closed : Closed older
  isOpen : r.isOpen = true

theorem Closed.map_onOpen {ring : List DropRecord} (h : Closed ring) (g : DropRecord → DropRecord) :
    (ring.map fun r => if r.isOpen then g r else r) = ring :=
  (List.map_congr_left fun r hr => by simp [h r hr]).trans (List.map_id ring)

theorem mem_of_mem_makeRoom {ring : List DropRecord} {r : DropRecord} (h : r ∈ makeRoom ring) : r ∈ ring := by
  unfold makeRoom at h
  split at h
  · exact h
  · exact List.mem_of_mem_drop h

/-- Without an open record nothing changes. -/
theorem Mtm.onOpen_closed {m : Mtm} (h : Closed m.ring) (g : DropRecord → DropRecord) : m.onOpen g = m := by
  unfold Mtm.onOpen
  rw [h.map_onOpen]

/-- A change of the open record changes the newest one. -/
theorem Mtm.Records.onOpen_ring {m : Mtm} {older : List DropRecord} {r : DropRecord} (h : m.Records older r)
    (g : DropRecord → DropRecord) : (m.onOpen g).ring = older ++ [g r] := by
  show m.ring.map _ = _
  rw [h.ring, List.map_append, h.closed.map_onOpen]
  simp [h.isOpen]

theorem Mtm.Records.openRecord? {m : Mtm} {older : List DropRecord} {r : DropRecord} (h : m.Records older r) :
    m.openRecord? = some r := by
  have hold : older.find? (·.isOpen) = none := List.find?_eq_none.2 fun q hq => by simp [h.closed q hq]
  simp [Mtm.openRecord?, h.ring, List.find?_append, hold, h.isOpen]

/-! ### The invariant of MTM -/

/-- The drop ring in order, by its newest record: what `Mtm.sound` says of each place of the ring. -/
structure Mtm.Ordered (m : Mtm) : Prop where
  length : m.ring.length ≤ 8
  history : m.history.length ≤ 8
  nextSeq : m.nextSeq < 65536
  numbers : Consecutive (m.ring.map (·.seq)) m.nextSeq
  fits : ∀ r ∈ m.ring, r.Fits
  closed : m.phase.recording = false → Closed m.ring
  records : m.phase.recording = true → ∃ older r, m.Records older r
  hold : m.holdTimer.isSome = true ↔ m.phase = .hold

theorem Mtm.sound.ordered {m : Mtm} (h : m.sound) : m.Ordered := by
  obtain ⟨hlen, hhist, hnext, hrec, hne, hhold⟩ := h
  have hmem : ∀ r ∈ m.ring, ∃ i : Nat, m.ring[i]? = some r := fun r hr => List.mem_iff_getElem?.1 hr
  refine ⟨hlen, hhist, hnext, (consecutive_iff _ _).2 fun i n hn => ?_, fun r hr => ?_, fun hp r hr => ?_, fun hp => ?_, hhold⟩
  · rw [List.getElem?_map, Option.map_eq_some_iff] at hn
    obtain ⟨r, hr, rfl⟩ := hn
    obtain ⟨hlt, hseq, _⟩ := hrec i r hr
    rw [List.length_map]
    exact ⟨hlt, hseq⟩
  · obtain ⟨i, hi⟩ := hmem r hr
    obtain ⟨_, _, hcap, hb, hlead, _⟩ := hrec i r hi
    exact ⟨hcap, hb, hlead⟩
  · obtain ⟨i, hi⟩ := hmem r hr
    obtain ⟨_, _, _, _, _, hopen⟩ := hrec i r hi
    cases hr : r.isOpen with
    | false => rfl
    | true => rw [(hopen.1 hr).2] at hp; cases hp
  · obtain ⟨older, r, hring⟩ : ∃ older r, m.ring = older ++ [r] :=
      ⟨_, _, (List.dropLast_concat_getLast (hne hp)).symm⟩
    have hopen : ∀ (i : Nat) (q : DropRecord), m.ring[i]? = some q → (q.isOpen = true ↔ i + 1 = m.ring.length) := fun i q hq => by
      obtain ⟨_, _, _, _, _, hopen⟩ := hrec i q hq
      rw [hopen, and_iff_left hp]
    refine ⟨older, r, hring, fun q hq => ?_, ?_⟩
    · obtain ⟨i, hi⟩ := List.mem_iff_getElem?.1 hq
      have hlt := (List.getElem?_eq_some_iff.1 hi).1
      have := hopen i q (by rw [hring, List.getElem?_append_left hlt, hi])
      rw [hring, List.length_append, List.length_singleton] at this
      rw [Bool.eq_false_iff, ne_eq, this]
      omega
    · refine (hopen older.length r ?_).2 ?_
      · simp [hring]
      · simp [hring]

theorem Mtm.Ordered.sound {m : Mtm} (h : m.Ordered) : m.sound := by
  have hnum := (consecutive_iff _ _).1 h.numbers
  refine ⟨h.length, h.history, h.nextSeq, fun i r hr => ?_, fun hp => ?_, h.hold⟩
  · obtain ⟨hlt, hseq⟩ := hnum i r.seq (by rw [List.getElem?_map, hr]; rfl)
    obtain ⟨hcap, hb, hlead⟩ := h.fits r (List.mem_of_getElem? hr)
    refine ⟨hlt, by rwa [List.length_map] at hseq, hcap, hb, hlead, ?_⟩
    cases hp : m.phase.recording with
    | false => simp [h.closed hp r (List.mem_of_getElem? hr)]
    | true =>
      obtain ⟨older, q, hring, hclosed, hopen⟩ := h.records hp
      rw [hring] at hr ⊢
      rw [List.length_append, List.length_singleton]
      by_cases hi : i < older.length
      · rw [List.getElem?_append_left hi] at hr
        simp [hclosed r (List.mem_of_getElem? hr)]
        omega
      · have hlast : i = older.length := by
          have := (List.getElem?_eq_some_iff.1 hr).1
          rw [List.length_append, List.length_singleton] at this
          omega
        subst hlast
        obtain rfl : q = r := by simpa using hr
        simp [hopen]
  · obtain ⟨older, r, hring, _⟩ := h.records hp
    simp [hring]

/-- The newest record is replaced by one of its number, open exactly if the phase records (R111 to R116). -/
theorem Mtm.Ordered.replace {m m' : Mtm} (h : m.Ordered) {older : List DropRecord} {r r' : DropRecord}
    (hr : m.Records older r) (hring : m'.ring = older ++ [r']) (hseq : r'.seq = r.seq) (hfits : r'.Fits)
    (hopen : r'.isOpen = m'.phase.recording) (hnext : m'.nextSeq = m.nextSeq) (hhist : m'.history.length ≤ 8)
    (hhold : m'.holdTimer.isSome = true ↔ m'.phase = .hold) : m'.Ordered where
  length := by
    have := h.length
    rw [hr.ring] at this
    rw [hring]
    simpa using this
  history := hhist
  nextSeq := hnext ▸ h.nextSeq
  numbers := by
    have := h.numbers
    rw [hr.ring, List.map_append] at this
    rw [hring, hnext, List.map_append]
    simpa [hseq] using this
  fits q hq := by
    rw [hring] at hq
    rcases List.mem_append.1 hq with hq | hq
    · exact h.fits q (by rw [hr.ring]; exact List.mem_append_left _ hq)
    · rw [List.mem_singleton.1 hq]
      exact hfits
  closed hp q hq := by
    rw [hring] at hq
    rcases List.mem_append.1 hq with hq | hq
    · exact hr.closed q hq
    · rw [List.mem_singleton.1 hq, hopen, hp]
  records hp := ⟨older, r', hring, hr.closed, hopen.trans hp⟩
  hold := hhold

/-- A record opens outside a record, with the next number and the oldest one's place where the ring is full (R131). -/
theorem Mtm.Ordered.push {m m' : Mtm} (h : m.Ordered) (hp : m.phase.recording = false) {r : DropRecord}
    (hring : m'.ring = makeRoom m.ring ++ [r]) (hseq : r.seq = m.nextSeq) (hfits : r.Fits) (hopen : r.isOpen = true)
    (hp' : m'.phase.recording = true) (hnext : m'.nextSeq = (m.nextSeq + 1) % 65536) (hhist : m'.history.length ≤ 8)
    (hhold : m'.holdTimer = none) : m'.Ordered where
  length := by
    have := makeRoom_length_lt m.ring h.length
    rw [hring]
    simpa using this
  history := hhist
  nextSeq := hnext ▸ Nat.mod_lt _ (by decide)
  numbers := by
    have hroom : Consecutive ((makeRoom m.ring).map (·.seq)) m.nextSeq := by
      unfold makeRoom
      split
      · exact h.numbers
      · rw [List.map_drop]
        exact h.numbers.drop 1
    rw [hring, hnext, List.map_append, List.map_singleton, hseq]
    exact hroom.push h.nextSeq
  fits q hq := by
    rw [hring] at hq
    rcases List.mem_append.1 hq with hq | hq
    · exact h.fits q (mem_of_mem_makeRoom hq)
    · rw [List.mem_singleton.1 hq]
      exact hfits
  closed hn := by rw [hp'] at hn; cases hn
  records _ := ⟨makeRoom m.ring, r, hring, fun q hq => h.closed hp q (mem_of_mem_makeRoom hq), hopen⟩
  hold := by
    rw [hhold]
    refine ⟨nofun, fun hh => ?_⟩
    rw [hh] at hp'
    cases hp'

end Sys2Proof.Machine
end

section
/-! A sample while a record is open (R113 to R116, R127, R128): what every branch of the phase machine does to the newest record
and to the detector. -/

namespace Sys2Proof.Machine

/-! ### The record -/

/-- What impact samples and appended samples build: the peak, the lead count and the capture list (R114, R127, R128). -/
def DropRecord.trace (r : DropRecord) : Option Peak × Option Nat × List Nat := (r.peak, r.lead, r.capture)

/-- The peak of a sample shows its magnitude, its axis and its sign (R114). -/
theorem Accel.peakOf (a : Accel) : PeakOf a a.magnitude a.peak := by
  have hmag : a.peak.magnitude = a.magnitude := by unfold Accel.peak; split <;> [rfl; split <;> rfl]
  refine ⟨hmag, fun (hx : _ = a.hi) => ?_, fun (hx : _ < a.hi) (hy : _ = a.hi) => ?_,
    fun (hx : _ < a.hi) (hy : _ < a.hi) => ?_⟩
  · rw [Accel.peak, if_pos hx]
    exact ⟨rfl, decide_eq_true_iff⟩
  · rw [Accel.peak, if_neg (Nat.ne_of_lt hx), if_pos hy]
    exact ⟨rfl, decide_eq_true_iff⟩
  · rw [Accel.peak, if_neg (Nat.ne_of_lt hx), if_neg (Nat.ne_of_lt hy)]
    exact ⟨rfl, decide_eq_true_iff⟩

section
variable (r : DropRecord) (a : Accel) (history : List Nat) (m : Nat)

/-- An impact sample moves the trace alone (R114). -/
theorem DropRecord.impact_only : r.impact a history = { r with
    peak := (r.impact a history).peak, lead := (r.impact a history).lead, capture := (r.impact a history).capture } := by
  unfold DropRecord.impact
  repeat' split
  all_goals rfl

/-- An appended sample moves the capture list alone (R128). -/
theorem DropRecord.append_only : r.append m = { r with capture := (r.append m).capture } := by
  unfold DropRecord.append
  split <;> rfl

theorem DropRecord.append_capture : (r.append m).capture =
    if r.lead.isSome = true ∧ r.capture.length < 16 then r.capture ++ [m] else r.capture := by
  unfold DropRecord.append Config.capturePlaces
  by_cases h : r.lead.isSome = true ∧ r.capture.length < 16 <;> simp [h]

/-- The first impact of a record that takes one builds peak, lead count and capture list (R114, R127). -/
theorem DropRecord.impact_first (hp : r.peak = none) (ht : r.takesImpacts = true) :
    r.impact a history = { r with peak := some a.peak, lead := some history.length, capture := history ++ [a.magnitude] } := by
  simp [DropRecord.impact, hp, ht]

/-- A further impact keeps the larger peak (R114). -/
theorem DropRecord.impact_further {q : Peak} (hp : r.peak = some q) :
    r.impact a history = { r with peak := some (if q.magnitude < a.magnitude then a.peak else q) } := by
  unfold DropRecord.impact
  rw [hp]
  dsimp only
  split
  · rfl
  · rw [← hp]

end

section
variable {r : DropRecord}

theorem DropRecord.Fits.append (h : r.Fits) (m : Nat) : (r.append m).Fits := by
  have hcap := r.append_capture m
  rw [r.append_only m]
  refine ⟨?_, h.bounces, h.lead⟩
  rw [hcap]
  split
  · next hc => simpa using hc.2
  · exact h.capture

theorem DropRecord.Fits.impact (h : r.Fits) (a : Accel) {history : List Nat} (hh : history.length ≤ 8) :
    (r.impact a history).Fits := by
  cases hp : r.peak with
  | some q =>
    rw [r.impact_further a history hp]
    refine ⟨h.capture, h.bounces, ?_⟩
    rw [← h.lead, hp]
    rfl
  | none =>
    cases ht : r.takesImpacts with
    | false => simpa [DropRecord.impact, hp, ht] using h
    | true =>
      rw [r.impact_first a history hp ht]
      refine ⟨?_, h.bounces, rfl⟩
      rw [List.length_append, List.length_singleton]
      omega

/-- A field that only the phase machine moves. -/
theorem DropRecord.Fits.congr {r' : DropRecord} (h : r.Fits) (ht : r'.trace = r.trace) (hb : r'.bounces ≤ 15) : r'.Fits := by
  obtain ⟨hp, hl, hc⟩ : r'.peak = r.peak ∧ r'.lead = r.lead ∧ r'.capture = r.capture := by
    simpa [DropRecord.trace] using ht
  exact ⟨hc ▸ h.capture, hb, by rw [hp, hl]; exact h.lead⟩

end

/-! ### The detector in the middle of a sample -/

/-- What no branch of the phase machine touches while a record is open, but for the start of PROTECT_HOLD. -/
def Mtm.frame (m : Mtm) : Nat × List Nat × Option Nat × MotionSettings := (m.nextSeq, m.history, m.holdTimer, m.set)

/-- `m2` stands in the middle of a sample that `m` took with `older` and the open record `r` in the ring: the newest record is now
`r2`, still open. -/
structure Mtm.During (m : Mtm) (older : List DropRecord) (r : DropRecord) (m2 : Mtm) (r2 : DropRecord) : Prop where
  records : m2.Records older r2
  fits : r2.Fits
  origin : r2.origin = r.origin
  frame : m2.frame = m.frame

/-- What a sample leaves that `m` took with `older` and the open record `r` in the ring, whatever its branch: the newest record is
`r'`; it stays open with the phase recording, or the phase is HOLD, the record closed, PROTECT_HOLD started, the counts cleared and
DROP_RECORDED raised (R116). -/
structure Mtm.Leaves (m : Mtm) (older : List DropRecord) (r : DropRecord) (x : Motion) (r' : DropRecord) : Prop where
  ring : x.mtm.ring = older ++ [r']
  fits : r'.Fits
  origin : r'.origin = r.origin
  nextSeq : x.mtm.nextSeq = m.nextSeq
  history : x.mtm.history = m.history
  goesOn : x.mtm.phase ≠ .hold →
    r'.isOpen = true ∧ x.mtm.phase.recording = true ∧ x.mtm.holdTimer = m.holdTimer ∧ x.pulses = []
  ends : x.mtm.phase = .hold → r'.isOpen = false ∧ x.mtm.holdTimer = some m.set.protectHold ∧ x.mtm.lowRun = 0
    ∧ x.mtm.midRun = 0 ∧ x.mtm.quiet = 0 ∧ x.pulses = [.dropRecorded]

section
variable {m m2 : Mtm} {older : List DropRecord} {r r2 : DropRecord}

theorem Mtm.During.set (h : m.During older r m2 r2) : m2.set = m.set :=
  congrArg (fun f : Nat × List Nat × Option Nat × MotionSettings => f.2.2.2) h.frame
theorem Mtm.During.history (h : m.During older r m2 r2) : m2.history = m.history :=
  congrArg (fun f : Nat × List Nat × Option Nat × MotionSettings => f.2.1) h.frame
theorem Mtm.During.nextSeq (h : m.During older r m2 r2) : m2.nextSeq = m.nextSeq := congrArg Prod.fst h.frame
theorem Mtm.During.holdTimer (h : m.During older r m2 r2) : m2.holdTimer = m.holdTimer :=
  congrArg (fun f : Nat × List Nat × Option Nat × MotionSettings => f.2.2.1) h.frame

theorem Mtm.During.start (hr : m.Records older r) (hf : r.Fits) : m.During older r m r := ⟨hr, hf, rfl, rfl⟩

/-- The phase and the counts move. -/
theorem Mtm.During.counts (h : m.During older r m2 r2) {m3 : Mtm} (hring : m3.ring = m2.ring) (hframe : m3.frame = m2.frame) :
    m.During older r m3 r2 :=
  ⟨⟨hring.trans h.records.ring, h.records.closed, h.records.isOpen⟩, h.fits, h.origin, hframe.trans h.frame⟩

/-- The open record changes. -/
theorem Mtm.During.onOpen (h : m.During older r m2 r2) (g : DropRecord → DropRecord) (hopen : (g r2).isOpen = true)
    (hfits : (g r2).Fits) (horigin : (g r2).origin = r2.origin) : m.During older r (m2.onOpen g) (g r2) :=
  ⟨⟨h.records.onOpen_ring g, h.records.closed, hopen⟩, hfits, horigin.trans h.origin, h.frame⟩

/-- The sample enters the capture list of a record whose head is built (R128). -/
theorem Mtm.During.append (h : m.During older r m2 r2) (mag : Nat) :
    m.During older r (m2.onOpen fun r => r.append mag) (r2.append mag) := by
  refine h.onOpen _ ?_ (h.fits.append mag) ?_ <;> rw [r2.append_only mag]
  · exact h.records.isOpen
  · rfl

/-- The record goes on. -/
theorem Mtm.During.leaves (h : m.During older r m2 r2) {x : Motion} (hring : x.mtm.ring = m2.ring)
    (hframe : x.mtm.frame = m2.frame) (hp : x.mtm.phase.recording = true) (hx : x.pulses = []) : m.Leaves older r x r2 :=
  have h3 := h.counts hring hframe
  ⟨h3.records.ring, h3.fits, h3.origin, h3.nextSeq, h3.history, fun _ => ⟨h3.records.isOpen, hp, h3.holdTimer, hx⟩,
    fun hh => by rw [hh] at hp; cases hp⟩

/-- Entry to HOLD closes the record with its outcome (R116). -/
theorem Mtm.During.enterHold (h : m.During older r m2 r2) (o : SettleOutcome) :
    m.Leaves older r (m2.enterHold o) { r2 with outcome := o, isOpen := false } where
  ring := h.records.onOpen_ring _
  fits := h.fits.congr rfl h.fits.bounces
  origin := h.origin
  nextSeq := h.nextSeq
  history := h.history
  goesOn hh := absurd rfl hh
  ends _ := ⟨rfl, by rw [← h.set]; rfl, rfl, rfl, rfl, rfl⟩

/-! ### Settling (R115) -/

theorem Mtm.isQuiet_iff (mag : Nat) : m.isQuiet mag = true ↔ mag ≤ 1000 + m.set.quietBand ∧ 1000 ≤ mag + m.set.quietBand := by
  simp [Mtm.isQuiet]

/-- The settling test of a sample below IMPACT_THRESH (R115). -/
theorem Mtm.During.settleTests (h : m.During older r m2 r2) (hp : m2.phase = .settle) (mag : Nat) :
    ∃ r', m.Leaves older r (m2.settleTests mag) r' ∧ r' = { r2 with outcome := r'.outcome, isOpen := r'.isOpen }
      ∧ SettleTested m m2.quiet m2.settled mag (m2.settleTests mag).mtm r' := by
  have hdone := fun (m3 : Mtm) (o : SettleOutcome) (hr : m3.ring = m2.ring) (hf : m3.frame = m2.frame) =>
    (h.counts hr hf).enterHold o
  have hon := fun (m3 : Mtm) (hr : m3.ring = m2.ring) (hf : m3.frame = m2.frame) (hp3 : m3.phase = .settle) =>
    h.leaves (x := ⟨m3, []⟩) hr hf (by rw [hp3]; rfl) rfl
  have hq := m2.isQuiet_iff (mag := mag)
  have hset := h.set
  unfold SettleTested
  rw [← hset]
  unfold Mtm.settleTests
  dsimp only
  rw [← hq]
  split
  · next hquiet =>
    have hquiet : m2.isQuiet mag = true := hquiet
    split
    · next hc =>
      refine ⟨_, hdone _ _ rfl rfl, rfl, rfl, fun _ => ⟨rfl, rfl⟩, fun hn => absurd ⟨hquiet, hc⟩ hn,
        fun hn => absurd ⟨hquiet, hc⟩ hn⟩
    · next hc =>
      split
      · next hmax =>
        exact ⟨_, hdone _ _ rfl rfl, rfl, rfl, fun he => absurd he.2 hc, fun _ _ => ⟨rfl, rfl⟩,
          fun _ hlt => absurd hmax (not_le.2 hlt)⟩
      · next hmax =>
        exact ⟨_, hon _ rfl rfl hp, rfl, rfl, fun he => absurd he.2 hc, fun _ hle => absurd hle hmax,
          fun _ _ => ⟨hp, h.records.isOpen, fun _ => rfl, fun hn => absurd hquiet hn⟩⟩
  · next hloud =>
    have hloud : ¬ m2.isQuiet mag = true := hloud
    split
    · next hmax =>
      exact ⟨_, hdone _ _ rfl rfl, rfl, rfl, fun he => absurd he.1 hloud, fun _ _ => ⟨rfl, rfl⟩,
        fun _ hlt => absurd hmax (not_le.2 hlt)⟩
    · next hmax =>
      exact ⟨_, hon _ rfl rfl hp, rfl, rfl, fun he => absurd he.1 hloud, fun _ hle => absurd hle hmax,
        fun _ _ => ⟨hp, h.records.isOpen, fun hn => absurd hn hloud, fun _ => rfl⟩⟩

/-- The first sample of SETTLE: the settle count starts anew with a record that has not bounced (R115, log entry 21). -/
theorem Mtm.During.enterSettle (h : m.During older r m2 r2) (mag : Nat) :
    ∃ r', m.Leaves older r (m2.enterSettle mag) r' ∧ r' = { r2 with outcome := r'.outcome, isOpen := r'.isOpen }
      ∧ SettleTested m 0 (if r2.bounces = 0 then 0 else m2.settled) mag (m2.enterSettle mag).mtm r' := by
  have hbounced : (if (m2.openRecord?.any fun r => decide (0 < r.bounces)) = true then m2.settled else 0)
      = if r2.bounces = 0 then 0 else m2.settled := by
    rw [h.records.openRecord?, Option.any_some]
    by_cases hb : r2.bounces = 0
    · simp [hb]
    · simp [hb, Nat.pos_of_ne_zero hb]
  unfold Mtm.enterSettle
  dsimp only
  rw [hbounced]
  exact (h.counts (m3 := { m2 with phase := .settle, quiet := 0, settled := if r2.bounces = 0 then 0 else m2.settled })
    rfl rfl).settleTests rfl mag

/-! ### The three phases -/

/-- What a sample in FALLING leaves, `r` being the record with the sample appended (R113). -/
structure FallTested (m : Mtm) (r : DropRecord) (a : Accel) (after : Mtm) (r' : DropRecord) : Prop where
  lands : m.set.impactThresh ≤ a.magnitude → after.phase = .impact
    ∧ r' = ({ r with fallLength := heldAt r.fallLength 65535, kind := .fallLanded } : DropRecord).impact a m.history
  isCaught : a.magnitude < m.set.impactThresh → m.set.ffThresh ≤ a.magnitude → m.set.ffCount ≤ heldAt m.midRun 255 →
    r' = { r with fallLength := heldAt r.fallLength 65535, kind := .fallCaught, outcome := r'.outcome, isOpen := r'.isOpen }
      ∧ SettleTested m 0 (if r.bounces = 0 then 0 else m.settled) a.magnitude after r'
  aborts : a.magnitude < m.set.impactThresh → a.magnitude < m.set.ffThresh ∨ heldAt m.midRun 255 < m.set.ffCount →
    m.set.ffMax ≤ heldAt r.fallLength 65535 → after.phase = .hold
      ∧ r' = { r with fallLength := heldAt r.fallLength 65535, outcome := .unsettled, isOpen := false }
  falls : a.magnitude < m.set.impactThresh → a.magnitude < m.set.ffThresh ∨ heldAt m.midRun 255 < m.set.ffCount →
    ¬m.set.ffMax ≤ heldAt r.fallLength 65535 → after.phase = .falling ∧ r' = { r with fallLength := heldAt r.fallLength 65535 }
      ∧ after.midRun = if a.magnitude < m.set.ffThresh then 0 else heldAt m.midRun 255

/-- What a sample in IMPACT leaves (R114). -/
structure ImpactTested (m : Mtm) (r : DropRecord) (a : Accel) (after : Mtm) (r' : DropRecord) : Prop where
  further : m.set.impactThresh ≤ a.magnitude →
    after.phase = .impact ∧ after.settled = m.settled ∧ r' = r.impact a m.history
  ends : a.magnitude < m.set.impactThresh → r' = { r with outcome := r'.outcome, isOpen := r'.isOpen }
    ∧ SettleTested m 0 (if r.bounces = 0 then 0 else m.settled) a.magnitude after r'

/-- What a sample in SETTLE leaves (R115). -/
structure BounceTested (m : Mtm) (r : DropRecord) (a : Accel) (after : Mtm) (r' : DropRecord) : Prop where
  bounces : m.set.impactThresh ≤ a.magnitude → after.phase = .impact ∧ after.quiet = 0
    ∧ after.settled = heldAt m.settled 65535 ∧ r' = ({ r with bounces := heldAt r.bounces 15 } : DropRecord).impact a m.history
  settles : a.magnitude < m.set.impactThresh → r' = { r with outcome := r'.outcome, isOpen := r'.isOpen }
    ∧ SettleTested m m.quiet m.settled a.magnitude after r'

/-- The counts of the detector that a sample reads. -/
def Mtm.counters (m : Mtm) : Phase × Nat × Nat × Nat := (m.phase, m.midRun, m.quiet, m.settled)

theorem heldAt_le {n top : Nat} (h : n ≤ top) : heldAt n top ≤ top := by unfold heldAt; split <;> omega

/-- An impact sample is taken by the open record. -/
theorem Mtm.During.impact (h : m.During older r m2 r2) (hh : m.history.length ≤ 8) (a : Accel)
    (g : DropRecord → DropRecord) (hopen : (g r2).isOpen = true) (hfits : (g r2).Fits) (horigin : (g r2).origin = r2.origin) :
    m.During older r (m2.onOpen fun q => (g q).impact a m.history) ((g r2).impact a m.history) := by
  have honly := (g r2).impact_only a m.history
  refine h.onOpen (fun q => (g q).impact a m.history) ?_ (hfits.impact a hh) ?_
  · exact (congrArg DropRecord.isOpen honly).trans hopen
  · exact (congrArg DropRecord.origin honly).trans horigin

section
variable (h : m.During older r m2 r2) (hc : m2.counters = m.counters) (hh : m.history.length ≤ 8) (a : Accel)
include h hc hh

theorem Mtm.During.fallingStep (hp : m2.phase = .falling) :
    ∃ r', m.Leaves older r (m2.fallingStep a) r' ∧ FallTested m r2 a (m2.fallingStep a).mtm r' := by
  obtain ⟨_, hmid, _, hsettled⟩ : m2.phase = m.phase ∧ m2.midRun = m.midRun ∧ m2.quiet = m.quiet ∧ m2.settled = m.settled := by
    simpa [Mtm.counters] using hc
  have h1 := h.onOpen (fun r => { r with fallLength := heldInc r.fallLength 65535 }) h.records.isOpen
    (h.fits.congr rfl h.fits.bounces) rfl
  have haborts : ((m2.onOpen fun r => { r with fallLength := heldInc r.fallLength 65535 }).openRecord?.any
      fun r => decide (m2.set.ffMax ≤ r.fallLength)) = decide (m.set.ffMax ≤ heldAt r2.fallLength 65535) := by
    rw [h1.records.openRecord?, h.set]
    rfl
  unfold Mtm.fallingStep
  dsimp only
  rw [haborts, h.set, h.history]
  split
  · next hi =>
    have h2 := h1.impact hh a (fun q => { q with kind := .fallLanded }) h.records.isOpen (h1.fits.congr rfl h.fits.bounces) rfl
    refine ⟨_, h2.leaves rfl rfl rfl rfl, fun _ => ⟨rfl, rfl⟩, fun hl => ?_, fun hl => ?_, fun hl => ?_⟩ <;>
    exact absurd hi (not_le.2 hl)
  · next hi =>
    split
    · next hf =>
      split
      · next hcount =>
        have h2 := (h1.counts (m3 := { m2.onOpen _ with midRun := heldInc m2.midRun 255 }) rfl rfl).onOpen
          (fun q => { q with kind := .fallCaught }) h.records.isOpen (h1.fits.congr rfl h.fits.bounces) rfl
        obtain ⟨r', hleaves, hr', htest⟩ := h2.enterSettle a.magnitude
        have hcount : m.set.ffCount ≤ heldAt m.midRun 255 := by rw [← hmid]; exact hcount
        refine ⟨r', hleaves, fun hl => absurd hl hi, fun _ _ _ => ⟨hr', ?_⟩, fun _ hl => ?_, fun _ hl => ?_⟩
        · rw [← hsettled]; exact htest
        · rcases hl with hl | hl <;> omega
        · rcases hl with hl | hl <;> omega
      · next hcount =>
        have hcount : ¬m.set.ffCount ≤ heldAt m.midRun 255 := by rw [← hmid]; exact hcount
        split
        · next hlong =>
          exact ⟨_, (h1.counts rfl rfl).enterHold .unsettled, fun hl => absurd hl hi, fun _ _ hn => absurd hn hcount,
            fun _ _ _ => ⟨rfl, rfl⟩, fun _ _ hn => absurd (of_decide_eq_true hlong) hn⟩
        · next hlong =>
          refine ⟨_, h1.leaves rfl rfl (congrArg Phase.recording hp) rfl, fun hl => absurd hl hi, fun _ _ hn => absurd hn hcount,
            fun _ _ hn => absurd (decide_eq_true hn) hlong, fun _ _ _ => ⟨hp, rfl, ?_⟩⟩
          rw [if_neg (not_lt.2 hf), ← hmid]
          rfl
    · next hf =>
      have hf : a.magnitude < m.set.ffThresh := not_le.1 hf
      split
      · next hlong =>
        exact ⟨_, (h1.counts rfl rfl).enterHold .unsettled, fun hl => absurd hl hi, fun _ hn => absurd hf (not_lt.2 hn),
          fun _ _ _ => ⟨rfl, rfl⟩, fun _ _ hn => absurd (of_decide_eq_true hlong) hn⟩
      · next hlong =>
        exact ⟨_, h1.leaves rfl rfl (congrArg Phase.recording hp) rfl, fun hl => absurd hl hi, fun _ hn => absurd hf (not_lt.2 hn),
          fun _ _ hn => absurd (decide_eq_true hn) hlong, fun _ _ _ => ⟨hp, rfl, (if_pos hf).symm⟩⟩

theorem Mtm.During.impactStep (hp : m2.phase = .impact) :
    ∃ r', m.Leaves older r (m2.impactStep a) r' ∧ ImpactTested m r2 a (m2.impactStep a).mtm r' := by
  obtain ⟨_, _, _, hsettled⟩ : m2.phase = m.phase ∧ m2.midRun = m.midRun ∧ m2.quiet = m.quiet ∧ m2.settled = m.settled := by
    simpa [Mtm.counters] using hc
  unfold Mtm.impactStep
  rw [h.set, h.history]
  split
  · next hi =>
    have h2 := h.impact hh a id h.records.isOpen h.fits rfl
    exact ⟨_, h2.leaves rfl rfl (congrArg Phase.recording hp) rfl, fun _ => ⟨hp, hsettled, rfl⟩, fun hl => absurd hi (not_le.2 hl)⟩
  · next hi =>
    obtain ⟨r', hleaves, hr', htest⟩ := h.enterSettle a.magnitude
    exact ⟨r', hleaves, fun hl => absurd hl hi, fun _ => ⟨hr', hsettled ▸ htest⟩⟩

theorem Mtm.During.settleStep (hp : m2.phase = .settle) :
    ∃ r', m.Leaves older r (m2.settleStep a) r' ∧ BounceTested m r2 a (m2.settleStep a).mtm r' := by
  obtain ⟨_, _, hquiet, hsettled⟩ : m2.phase = m.phase ∧ m2.midRun = m.midRun ∧ m2.quiet = m.quiet ∧ m2.settled = m.settled := by
    simpa [Mtm.counters] using hc
  unfold Mtm.settleStep
  rw [h.set, h.history]
  split
  · next hi =>
    have h2 := h.impact hh a (fun q => { q with bounces := heldInc q.bounces 15 }) h.records.isOpen
      (h.fits.congr rfl (heldAt_le h.fits.bounces)) rfl
    exact ⟨_, h2.leaves rfl rfl rfl rfl, fun _ => ⟨rfl, rfl, by rw [← hsettled]; rfl, rfl⟩, fun hl => absurd hi (not_le.2 hl)⟩
  · next hi =>
    obtain ⟨r', hleaves, hr', htest⟩ := h.settleTests hp a.magnitude
    exact ⟨r', hleaves, fun hl => absurd hl hi, fun _ => ⟨hr', hquiet ▸ hsettled ▸ htest⟩⟩

end

/-- What a sample leaves that finds a record open, by the phase (R107, R113 to R116, R128). -/
theorem Mtm.Records.phaseStep (hr : m.Records older r) (hf : r.Fits) (hh : m.history.length ≤ 8)
    (hp : m.phase.recording = true) (a : Accel) (c : DropContext) :
    ∃ r', m.Leaves older r (m.phaseStep a c) r'
      ∧ (m.phase = .falling → FallTested m (r.append a.magnitude) a (m.phaseStep a c).mtm r')
      ∧ (m.phase = .impact → ImpactTested m (r.append a.magnitude) a (m.phaseStep a c).mtm r')
      ∧ (m.phase = .settle → BounceTested m (r.append a.magnitude) a (m.phaseStep a c).mtm r') := by
  have h := (Mtm.During.start hr hf).append a.magnitude
  unfold Mtm.phaseStep
  dsimp only
  cases hph : m.phase with
  | idle | hold => rw [hph] at hp; cases hp
  | falling =>
    obtain ⟨r', hleaves, htest⟩ := h.fallingStep rfl hh a hph
    exact ⟨r', hleaves, fun _ => htest, nofun, nofun⟩
  | impact =>
    obtain ⟨r', hleaves, htest⟩ := h.impactStep rfl hh a hph
    exact ⟨r', hleaves, nofun, fun _ => htest, nofun⟩
  | settle =>
    obtain ⟨r', hleaves, htest⟩ := h.settleStep rfl hh a hph
    exact ⟨r', hleaves, nofun, nofun, fun _ => htest⟩

/-- The ring stays in order through a sample in a record. -/
theorem Mtm.Leaves.ordered {x : Motion} {r' : DropRecord} (h : m.Leaves older r x r') (hm : m.Ordered) (hr : m.Records older r)
    (hp : m.phase.recording = true) : x.mtm.Ordered := by
  have hnone : m.holdTimer = none := by
    cases ht : m.holdTimer with
    | none => rfl
    | some n => rw [hm.hold.1 (by rw [ht]; rfl)] at hp; cases hp
  refine hm.replace hr h.ring (DropRecord.origin_seq h.origin) h.fits ?_ h.nextSeq (h.history ▸ hm.history) ?_
  · by_cases hh : x.mtm.phase = .hold
    · rw [(h.ends hh).1, hh]; rfl
    · obtain ⟨hopen, hrec, _⟩ := h.goesOn hh
      rw [hopen, hrec]
  · by_cases hh : x.mtm.phase = .hold
    · obtain ⟨_, ht, _⟩ := h.ends hh
      simp [ht, hh]
    · obtain ⟨_, _, ht, _⟩ := h.goesOn hh
      simp [ht, hnone, hh]

end

end Sys2Proof.Machine
end

section
/-! A sample in IDLE or HOLD (R112, R117), the other events of MTM, and the drop ring over every step (R106, R111, R116, R117, R125,
R128, R130, R131, R133). -/

namespace Sys2Proof.Machine

/-! ### A sample in IDLE or HOLD -/

section
variable {m : Mtm} (a : Accel) (c : DropContext)

/-- The record that a sample in IDLE or HOLD opens is the newest one, and the only open one (R111, R131). -/
theorem Mtm.openRecord_records (hc : Closed m.ring) (k : DropKind) (n : Nat) :
    (m.openRecord k n c).Records (makeRoom m.ring) (.opened m.nextSeq k n c) :=
  ⟨rfl, fun q hq => hc q (mem_of_mem_makeRoom hq), rfl⟩

/-- A SHOCK record with its first impact (R111, R114, R126, R127). -/
def DropRecord.shocked (seq : Nat) (c : DropContext) (a : Accel) (history : List Nat) : DropRecord :=
  { DropRecord.opened seq .shock 0 c with
    peak := some a.peak, lead := some history.length, capture := history ++ [a.magnitude] }

/-- An impact in IDLE or HOLD opens a SHOCK record (R112). -/
theorem Mtm.quietPhaseStep_shock (hc : Closed m.ring) (hi : m.set.impactThresh ≤ a.magnitude) : m.quietPhaseStep a c =
    { mtm := { m with
        ring := makeRoom m.ring ++ [.shocked m.nextSeq c a m.history], nextSeq := (m.nextSeq + 1) % 65536
        phase := .impact, lowRun := 0, holdTimer := none }
      pulses := [] } := by
  have hring := (m.openRecord_records c hc .shock 0).onOpen_ring fun r => r.impact a m.history
  rw [DropRecord.impact_first _ a m.history rfl rfl] at hring
  rw [Mtm.quietPhaseStep, if_pos hi]
  exact congrArg (fun ring => Motion.mk { m with
    ring := ring, nextSeq := (m.nextSeq + 1) % 65536, phase := .impact, lowRun := 0, holdTimer := none } []) hring

section
variable (hi : a.magnitude < m.set.impactThresh)
include hi

/-- A low run that reaches FF_COUNT opens a fall record (R112). -/
theorem Mtm.quietPhaseStep_falls (hl : a.magnitude < m.set.ffThresh) (hn : m.set.ffCount ≤ heldInc m.lowRun 255) :
    m.quietPhaseStep a c =
      { mtm := { m with
          ring := makeRoom m.ring ++ [.opened m.nextSeq .fallAborted m.set.ffCount c], nextSeq := (m.nextSeq + 1) % 65536
          phase := .falling, lowRun := 0, midRun := 0, holdTimer := none }
        pulses := [.fallStart] } := by
  rw [Mtm.quietPhaseStep, if_neg (not_le.2 hi), if_pos hl, if_pos hn]
  rfl

/-- A shorter low run only counts (R112). -/
theorem Mtm.quietPhaseStep_counts (hl : a.magnitude < m.set.ffThresh) (hn : heldInc m.lowRun 255 < m.set.ffCount) :
    m.quietPhaseStep a c = { mtm := { m with lowRun := heldInc m.lowRun 255 }, pulses := [] } := by
  rw [Mtm.quietPhaseStep, if_neg (not_le.2 hi), if_pos hl, if_neg (not_le.2 hn)]

/-- A middling sample ends the low run (R112). -/
theorem Mtm.quietPhaseStep_clears (hl : m.set.ffThresh ≤ a.magnitude) :
    m.quietPhaseStep a c = { mtm := { m with lowRun := 0 }, pulses := [] } := by
  rw [Mtm.quietPhaseStep, if_neg (not_le.2 hi), if_neg (not_lt.2 hl)]

end

theorem DropRecord.opened_fits (seq n : Nat) (k : DropKind) : (DropRecord.opened seq k n c).Fits :=
  ⟨Nat.zero_le _, Nat.zero_le _, rfl⟩

theorem DropRecord.shocked_fits (seq : Nat) {history : List Nat} (hh : history.length ≤ 8) :
    (DropRecord.shocked seq c a history).Fits := by
  refine ⟨?_, Nat.zero_le _, rfl⟩
  show (history ++ [a.magnitude]).length ≤ 16
  rw [List.length_append, List.length_singleton]
  omega

/-- Counts, settings and what a sample stores do not touch the order of the ring. -/
theorem Mtm.Ordered.congr {m' : Mtm} (h : m.Ordered) (hring : m'.ring = m.ring) (hnext : m'.nextSeq = m.nextSeq)
    (hhist : m'.history.length ≤ 8) (hp : m'.phase.recording = m.phase.recording)
    (hhold : m'.holdTimer.isSome = true ↔ m'.phase = .hold) : m'.Ordered where
  length := hring ▸ h.length
  history := hhist
  nextSeq := hnext ▸ h.nextSeq
  numbers := by rw [hring, hnext]; exact h.numbers
  fits := hring ▸ h.fits
  closed hn := hring ▸ h.closed (hp ▸ hn)
  records hr := by
    obtain ⟨older, r, hrec⟩ := h.records (hp ▸ hr)
    exact ⟨older, r, hring.trans hrec.ring, hrec.closed, hrec.isOpen⟩
  hold := hhold

theorem Mtm.Ordered.quietPhaseStep (h : m.Ordered) (hp : m.phase.recording = false) : (m.quietPhaseStep a c).mtm.Ordered := by
  have hclosed := h.closed hp
  by_cases hi : m.set.impactThresh ≤ a.magnitude
  · rw [Mtm.quietPhaseStep_shock a c hclosed hi]
    exact h.push hp rfl rfl (DropRecord.shocked_fits a c _ h.history) rfl rfl rfl h.history rfl
  · have hi := not_le.1 hi
    by_cases hl : a.magnitude < m.set.ffThresh
    · by_cases hn : m.set.ffCount ≤ heldInc m.lowRun 255
      · rw [Mtm.quietPhaseStep_falls a c hi hl hn]
        exact h.push hp rfl rfl (DropRecord.opened_fits c _ _ _) rfl rfl rfl h.history rfl
      · rw [Mtm.quietPhaseStep_counts a c hi hl (not_le.1 hn)]
        exact h.congr rfl rfl h.history rfl h.hold
    · rw [Mtm.quietPhaseStep_clears a c hi (not_lt.1 hl)]
      exact h.congr rfl rfl h.history rfl h.hold

end

/-! ### The events of MTM -/

/-- MTM with what an ACCEL sample stores before the phase step (R107). -/
def Mtm.stored (m : Mtm) (a : Accel) (index : Nat) : Mtm :=
  { m with lastMag := some a.magnitude, accelIndex := some index, staleTimer := some m.set.accelStale, live := true }

theorem Mtm.accelSample_eq (m : Mtm) (a : Accel) (i : Nat) (c : DropContext) : (m.accelSample a i c).mtm =
    { ((m.stored a i).phaseStep a c).mtm with
      history := pushHistory ((m.stored a i).phaseStep a c).mtm.history a.magnitude } := rfl

section
variable {m : Mtm}

/-- Outside a record the sample goes to the phase step as it is (R107, R128). -/
theorem Mtm.Ordered.phaseStep_quiet (h : m.Ordered) (hp : m.phase = .idle ∨ m.phase = .hold) (a : Accel) (c : DropContext) :
    m.phaseStep a c = m.quietPhaseStep a c := by
  have hclosed : Closed m.ring := h.closed (by rcases hp with hp | hp <;> rw [hp] <;> rfl)
  unfold Mtm.phaseStep
  rw [Mtm.onOpen_closed hclosed]
  rcases hp with hp | hp <;> rw [hp]

theorem Phase.recording_eq_false (p : Phase) : p.recording = false ↔ p = .idle ∨ p = .hold := by cases p <;> simp [Phase.recording]

theorem Mtm.Ordered.phaseStep (h : m.Ordered) (a : Accel) (c : DropContext) : (m.phaseStep a c).mtm.Ordered := by
  cases hp : m.phase.recording with
  | false =>
    rw [h.phaseStep_quiet ((Phase.recording_eq_false _).1 hp)]
    exact h.quietPhaseStep a c hp
  | true =>
    obtain ⟨older, r, hr⟩ := h.records hp
    obtain ⟨r', hleaves, _⟩ := hr.phaseStep (h.fits r (by rw [hr.ring]; simp)) h.history hp a c
    exact hleaves.ordered h hr hp

theorem Mtm.Ordered.accelSample (h : m.Ordered) (a : Accel) (i : Nat) (c : DropContext) : (m.accelSample a i c).mtm.Ordered := by
  have hs : (m.stored a i).Ordered := h.congr rfl rfl h.history rfl h.hold
  have hstep := hs.phaseStep a c
  rw [Mtm.accelSample_eq]
  exact hstep.congr rfl rfl (pushHistory_length _ _ hstep.history) rfl hstep.hold

/-- ACCEL_STALE closes an open record as BLIND (R118, R119). -/
theorem Mtm.Records.goBlind {older : List DropRecord} {r : DropRecord} (hr : m.Records older r) (hf : r.Fits)
    (hp : m.phase.recording = true) : m.goBlind.mtm.phase = .hold
      ∧ m.Leaves older r m.goBlind { r with outcome := .blind, isOpen := false } := by
  have hblind : m.goBlind = ({ m with staleTimer := none, live := false } : Mtm).enterHold .blind := by
    unfold Mtm.goBlind
    cases hph : m.phase with
    | idle | hold => rw [hph] at hp; cases hp
    | falling | impact | settle => rfl
  rw [hblind]
  exact ⟨rfl, ((Mtm.During.start hr hf).counts (m3 := { m with staleTimer := none, live := false }) rfl rfl).enterHold .blind⟩

/-- Without an open record ACCEL_STALE ends the low run alone (R118). -/
theorem Mtm.goBlind_quiet (hp : m.phase.recording = false) :
    m.goBlind = { mtm := { m with staleTimer := none, live := false, lowRun := 0 }, pulses := [] } := by
  unfold Mtm.goBlind
  rcases (Phase.recording_eq_false _).1 hp with hph | hph <;> rw [hph]

theorem Mtm.Ordered.goBlind (h : m.Ordered) : m.goBlind.mtm.Ordered := by
  cases hp : m.phase.recording with
  | false =>
    rw [Mtm.goBlind_quiet hp]
    exact h.congr rfl rfl h.history rfl h.hold
  | true =>
    obtain ⟨older, r, hr⟩ := h.records hp
    exact (hr.goBlind (h.fits r (by rw [hr.ring]; simp)) hp).2.ordered h hr hp

theorem Mtm.Ordered.endHold (h : m.Ordered) (hp : m.phase = .hold) : m.endHold.Ordered :=
  h.congr rfl rfl h.history (by rw [hp]; rfl) ⟨nofun, nofun⟩

/-- A DISLODGED loss marks the open record alone (R129). -/
theorem Mtm.Ordered.dislodged (h : m.Ordered) (x : Slot) : (m.onOpen fun r => r.dislodge x).Ordered := by
  cases hp : m.phase.recording with
  | false => rwa [Mtm.onOpen_closed (h.closed hp)]
  | true =>
    obtain ⟨older, r, hr⟩ := h.records hp
    have hf := h.fits r (by rw [hr.ring]; simp)
    refine h.replace hr (hr.onOpen_ring _) ?_ (hf.congr ?_ ?_) ?_ rfl h.history h.hold <;> cases x
    · rfl
    · rfl
    · rfl
    · rfl
    · exact hf.bounces
    · exact hf.bounces
    · exact hr.isOpen.trans hp.symm
    · exact hr.isOpen.trans hp.symm

/-- The records that DROP_RELEASE frees stand before the ones it keeps (R133). -/
theorem freeThrough_suffix (ring : List DropRecord) (seq : Nat) : freeThrough ring seq <:+ ring := by
  induction ring with
  | nil => exact List.suffix_refl _
  | cons r rest ih =>
    unfold freeThrough
    split
    · exact List.suffix_cons r rest
    · exact ih.trans (List.suffix_cons r rest)

/-- The records up to a held one are freed, and those behind it stay (R133). -/
theorem freeThrough_of_held {m : Mtm} {seq : Nat} {r : DropRecord} (h : m.held seq = some r) :
    ∃ freed, m.ring = freed ++ r :: freeThrough m.ring seq := by
  unfold Mtm.held at h
  generalize m.ring = ring at h ⊢
  induction ring with
  | nil => cases h
  | cons q rest ih =>
    unfold freeThrough
    rw [List.find?_cons] at h
    by_cases hq : q.seq = seq
    · obtain rfl : q = r := by simpa [hq] using h
      exact ⟨[], by simp [hq]⟩
    · obtain ⟨freed, hf⟩ := ih (by rwa [beq_eq_false_iff_ne.2 hq] at h)
      exact ⟨q :: freed, by rw [if_neg hq, List.cons_append, ← hf]⟩

/-- DROP_RELEASE of a closed record keeps an open one, which is newer (R130, R133). -/
theorem Mtm.Ordered.freed (h : m.Ordered) {seq : Nat} {r : DropRecord} (hheld : m.held seq = some r) (hc : r.isOpen = false) :
    ({ m with ring := freeThrough m.ring seq } : Mtm).Ordered where
  length := (freeThrough_suffix _ _).length_le.trans h.length
  history := h.history
  nextSeq := h.nextSeq
  numbers := by
    obtain ⟨freed, hf⟩ := freeThrough_suffix m.ring seq
    have hn := h.numbers
    rw [← hf, List.map_append] at hn
    exact hn.of_append
  fits q hq := h.fits q ((freeThrough_suffix _ _).subset hq)
  closed hp q hq := h.closed hp q ((freeThrough_suffix _ _).subset hq)
  records hp := by
    obtain ⟨older, q, hr⟩ := h.records hp
    obtain ⟨freed, hf⟩ := freeThrough_of_held hheld
    have hne : freeThrough m.ring seq ≠ [] := fun hnil => by
      rw [hnil, hr.ring] at hf
      obtain ⟨_, hq⟩ := List.append_inj' hf rfl
      rw [← (List.cons.inj hq).1, hr.isOpen] at hc
      cases hc
    obtain ⟨kept, last, hkept⟩ : ∃ kept last, freeThrough m.ring seq = kept ++ [last] :=
      ⟨_, _, (List.dropLast_concat_getLast hne).symm⟩
    rw [hkept, hr.ring, ← List.cons_append, ← List.append_assoc] at hf
    obtain ⟨hold, hq⟩ := List.append_inj' hf rfl
    obtain rfl := (List.cons.inj hq).1
    exact ⟨kept, q, hkept, fun p hp => hr.closed p (by rw [hold]; simp [hp]), hr.isOpen⟩
  hold := h.hold

end

end Sys2Proof.Machine
end

section
/-! The drop ring over every step (R106, R111, R116, R117, R125, R128, R130, R131, R133). -/

namespace Sys2Proof.Machine

/-! ### Samples -/

theorem State.tapDeliver_ordered {s : State} (h : s.mtm.Ordered) (r : TapRole) (i : Nat) (x : Sample) :
    (s.tapDeliver r i x).mtm.Ordered := by
  unfold State.tapDeliver
  split
  · exact h
  · split
    · rwa [State.raise_mtm]
    · cases r with
      | noTap => exact h
      | accel =>
        show (State.mtmEnd s _).mtm.Ordered
        rw [State.mtmEnd_mtm]
        exact h.accelSample _ _ _
      | lightFront | lightTop | gaugeA | gaugeB | bridge => simpa using h

theorem State.routeSample_ordered {s : State} (h : s.mtm.Ordered) (x : Sample) : (s.routeSample x).mtm.Ordered := by
  unfold State.routeSample
  split
  · rwa [State.unmatchedSample_mtm]
  · split
    · rwa [State.unmatchedSample_mtm]
    · exact State.tapDeliver_ordered (by rwa [State.northbound_mtm]) _ _ _

/-! ### Requests -/

/-- The owner's event keeps the drop ring in order. -/
def KeepsOrdered (owner : List Byte → State → Answer) : Prop := ∀ a s, s.mtm.Ordered → (owner a s).state.mtm.Ordered

/-- The owner's event leaves MTM alone. -/
def KeepsMtm (owner : List Byte → State → Answer) : Prop := ∀ a s, (owner a s).state.mtm = s.mtm

theorem KeepsOrdered.serve {owner : List Byte → State → Answer} (h : KeepsOrdered owner) {s : State} (hs : s.mtm.Ordered)
    (c : RequestCode) : (s.serve c owner).mtm.Ordered := by
  rcases s.serve_cases c owner with ht | ⟨r, _, _, ht | ht | ht⟩ <;> rw [ht]
  · exact hs
  · rwa [State.answer_mtm]
  · rwa [State.answer_mtm]
  · rw [State.answer_mtm]; exact h _ _ hs

theorem KeepsMtm.serve {owner : List Byte → State → Answer} (h : KeepsMtm owner) (s : State) (c : RequestCode) :
    (s.serve c owner).mtm = s.mtm := by
  rcases s.serve_cases c owner with ht | ⟨r, _, _, ht | ht | ht⟩ <;> rw [ht]
  · rw [State.answer_mtm]
  · rw [State.answer_mtm]
  · rw [State.answer_mtm, h]

theorem motionSetOwner_ordered : KeepsOrdered motionSetOwner := fun a s h => by
  unfold motionSetOwner
  dsimp only
  split
  · exact Mtm.Ordered.congr h rfl rfl h.history rfl h.hold
  · exact h

theorem dropReleaseOwner_ordered : KeepsOrdered dropReleaseOwner := fun a s h => by
  unfold dropReleaseOwner
  split
  · exact h
  · next r hheld =>
    split
    · exact h
    · next hc => exact h.freed hheld (by simpa using hc)

theorem restartOwner_ordered : KeepsOrdered restartOwner := fun a s h => by
  unfold restartOwner
  split
  · show (State.ppcSettle _ _ _).mtm.Ordered
    rw [State.ppcSettle_mtm]
    exact Mtm.Ordered.congr h rfl rfl h.history rfl h.hold
  · exact h

theorem packProfileOwner_mtm : KeepsMtm packProfileOwner := fun a s => by
  unfold packProfileOwner; dsimp only; split <;> simp
theorem packReleaseOwner_mtm : KeepsMtm packReleaseOwner := fun a s => by
  unfold packReleaseOwner
  split
  · rfl
  · dsimp only; split <;> simp
theorem powerSetOwner_mtm : KeepsMtm powerSetOwner := fun a s => by
  unfold powerSetOwner; dsimp only; split <;> simp
theorem bridgeSetOwner_mtm : KeepsMtm bridgeSetOwner := fun a s => by
  unfold bridgeSetOwner; dsimp only; split <;> simp
theorem lightSetOwner_mtm : KeepsMtm lightSetOwner := fun a s => by
  unfold lightSetOwner; dsimp only; split <;> simp
theorem curveHeaderOwner_mtm : KeepsMtm curveHeaderOwner := fun a s => by
  unfold curveHeaderOwner; dsimp only; split <;> simp
theorem curvePointOwner_mtm : KeepsMtm curvePointOwner := fun a s => by
  unfold curvePointOwner; dsimp only; split <;> simp
theorem blBiasOwner_mtm : KeepsMtm blBiasOwner := fun a s => by simp [blBiasOwner]
theorem blForceOwner_mtm : KeepsMtm blForceOwner := fun a s => by simp [blForceOwner]
theorem blReleaseOwner_mtm : KeepsMtm blReleaseOwner := fun a s => by
  unfold blReleaseOwner; dsimp only; split <;> simp
theorem dropReadOwner_mtm : KeepsMtm dropReadOwner := fun a s => by
  unfold dropReadOwner; split <;> rfl
theorem eventConfigOwner_mtm : KeepsMtm eventConfigOwner := fun a s => by
  unfold eventConfigOwner; dsimp only; repeat' split
  all_goals simp
theorem noticeEnableOwner_mtm : KeepsMtm noticeEnableOwner := fun a s => by
  unfold noticeEnableOwner; dsimp only; repeat' split
  all_goals simp
theorem countReadOwner_mtm : KeepsMtm countReadOwner := fun a s => by
  unfold countReadOwner; dsimp only; repeat' split
  all_goals simp
theorem routeReadOwner_mtm : KeepsMtm routeReadOwner := fun a s => by
  unfold routeReadOwner; dsimp only; split <;> rfl
theorem passOwner_mtm : KeepsMtm passOwner := fun a s => by
  unfold passOwner State.offerPort; dsimp only; repeat' split
  all_goals simp
theorem routeWriteOwner_mtm : KeepsMtm routeWriteOwner := fun a s => by
  unfold routeWriteOwner; dsimp only; repeat' split
  all_goals simp
theorem routeFlushOwner_mtm : KeepsMtm routeFlushOwner := fun a s => by
  rw [routeFlushOwner_eq, State.collide_mtm, State.setSrt_mtm]
theorem countSnapshotOwner_mtm : KeepsMtm countSnapshotOwner := fun a s => by
  unfold countSnapshotOwner
  rw [Answer.ok_state]
  split <;> rfl

/-! ### Every command -/

theorem State.finishRestart_ordered {s : State} (h : s.mtm.Ordered) : s.finishRestart.mtm.Ordered := by
  unfold State.finishRestart
  split
  · exact restartOwner_ordered.serve h _
  · exact h

theorem State.receivePort_ordered {s : State} (h : s.mtm.Ordered) (p : PortId) (f : WireFrame) :
    (s.receivePort p f).mtm.Ordered := by
  unfold State.receivePort
  split
  · exact State.routeSample_ordered (s := s.finishRestart.editPort p _) (State.finishRestart_ordered h) _
  · rwa [State.portError_mtm]

theorem Mtm.initial_ordered : Mtm.initial.Ordered where
  length := Nat.zero_le _
  history := Nat.zero_le _
  nextSeq := Nat.zero_lt_succ _
  numbers := trivial
  fits _ h := absurd h List.not_mem_nil
  closed _ _ h := absurd h List.not_mem_nil
  records h := absurd h Bool.false_ne_true
  hold := ⟨fun h => absurd h Bool.false_ne_true, fun h => absurd h (by decide)⟩

/-- The commands whose events reach the detector or the ring: the resets, samples, the two expiries, a loss, and the requests that
set or release. -/
def Instr.reachesMtm : Instr → Bool
  | .powerOnReset _ | .sampleFrameReceived .. | .badSampleFrame .. | .accelStaleExpiry | .protectHoldExpiry | .presenceLoss _
  | .motionSet | .dropRelease | .restart => true
  | _ => false

/-- Every other command leaves MTM as it is. -/
theorem exec_keeps_mtm {c : Instr} {s t : State} (hc : Instr.reachesMtm c = false) (hx : exec c s = .next t) :
    t.mtm = s.mtm := by
  cases c with
  | powerOnReset _ | sampleFrameReceived _ _ | badSampleFrame _ _ | accelStaleExpiry | protectHoldExpiry | presenceLoss _
  | motionSet | dropRelease | restart => cases hc
  | requestFrameReceived f | uplinkFrameDiscarded f =>
    obtain rfl := Host.Outcome.next.inj hx
    exact s.receiveUplink_mtm f
  | uplinkByteGap | portByteGap _ | transmitComplete | silenceTimeoutExpiry | seating _ | leverRelease _ | dcinOkChange _
  | brPresChange _ | qualTimeoutExpiry _ | releaseConfirmExpiry _ | unlockHoldExpiry _ | transferSettleExpiry
  | lightStaleExpiry _ | holdOffExpiry | leverPress _ =>
    obtain rfl := Host.Outcome.next.inj hx
    split <;> simp
  | uplinkFrameStart | portFrameStart _ | passSendComplete _ | stepExpiry =>
    obtain rfl := Host.Outcome.next.inj hx
    rfl
  | rawInputChange pin _ =>
    obtain rfl := Host.Outcome.next.inj hx
    cases pin <;> rfl
  | gaugeStaleExpiry _ =>
    obtain rfl := Host.Outcome.next.inj hx
    split
    · rfl
    · split <;> simp
  | swapWindowExpiry =>
    obtain rfl := Host.Outcome.next.inj hx
    split <;> simp
  | identify | linkStatus | powerStatus | curveRead | blStatus | motionStatus | linkSet | eventReadClear =>
    obtain rfl := Host.Outcome.next.inj hx
    exact KeepsMtm.serve (fun _ _ => rfl) s _
  | holdNotices =>
    obtain rfl := Host.Outcome.next.inj hx
    exact KeepsMtm.serve (fun a s => s.holdNotices_mtm _) s _
  | packStatus =>
    obtain rfl := Host.Outcome.next.inj hx
    exact KeepsMtm.serve (fun a s => by split <;> rfl) s _
  | routeRead => exact Host.Outcome.next.inj hx ▸ routeReadOwner_mtm.serve s _
  | routeWrite => exact Host.Outcome.next.inj hx ▸ routeWriteOwner_mtm.serve s _
  | routeFlush => exact Host.Outcome.next.inj hx ▸ routeFlushOwner_mtm.serve s _
  | countSnapshot => exact Host.Outcome.next.inj hx ▸ countSnapshotOwner_mtm.serve s _
  | countRead => exact Host.Outcome.next.inj hx ▸ countReadOwner_mtm.serve s _
  | pass => exact Host.Outcome.next.inj hx ▸ passOwner_mtm.serve s _
  | packProfileWrite => exact Host.Outcome.next.inj hx ▸ packProfileOwner_mtm.serve s _
  | packRelease => exact Host.Outcome.next.inj hx ▸ packReleaseOwner_mtm.serve s _
  | powerSet => exact Host.Outcome.next.inj hx ▸ powerSetOwner_mtm.serve s _
  | bridgeSet => exact Host.Outcome.next.inj hx ▸ bridgeSetOwner_mtm.serve s _
  | lightSet => exact Host.Outcome.next.inj hx ▸ lightSetOwner_mtm.serve s _
  | curveWriteHeader => exact Host.Outcome.next.inj hx ▸ curveHeaderOwner_mtm.serve s _
  | curveWritePoint => exact Host.Outcome.next.inj hx ▸ curvePointOwner_mtm.serve s _
  | blBias => exact Host.Outcome.next.inj hx ▸ blBiasOwner_mtm.serve s _
  | blForce => exact Host.Outcome.next.inj hx ▸ blForceOwner_mtm.serve s _
  | blRelease => exact Host.Outcome.next.inj hx ▸ blReleaseOwner_mtm.serve s _
  | dropRead => exact Host.Outcome.next.inj hx ▸ dropReadOwner_mtm.serve s _
  | eventConfig => exact Host.Outcome.next.inj hx ▸ eventConfigOwner_mtm.serve s _
  | noticeEnable => exact Host.Outcome.next.inj hx ▸ noticeEnableOwner_mtm.serve s _
  | unknownRequest =>
    obtain rfl := Host.Outcome.next.inj hx
    split
    · split <;> simp
    · rfl

/-- Every command keeps the drop ring in order. -/
theorem exec_ordered {c : Instr} {s t : State} (h : s.mtm.Ordered) (hx : exec c s = .next t) : t.mtm.Ordered := by
  cases hc : Instr.reachesMtm c with
  | false => exact exec_keeps_mtm hc hx ▸ h
  | true =>
    cases c with
    | powerOnReset pins =>
      obtain rfl := Host.Outcome.next.inj hx
      simpa [State.powerOn] using Mtm.initial_ordered
    | sampleFrameReceived p f | badSampleFrame p f =>
      obtain rfl := Host.Outcome.next.inj hx
      exact State.receivePort_ordered h p f
    | accelStaleExpiry =>
      obtain rfl := Host.Outcome.next.inj hx
      split
      · rw [State.mtmEnd_mtm]; exact h.goBlind
      · exact h
    | protectHoldExpiry =>
      obtain rfl := Host.Outcome.next.inj hx
      split
      · next hh =>
        obtain ⟨hp, _⟩ : s.mtm.phase = .hold ∧ s.mtm.holdTimer.isSome = true := by simpa using hh
        rw [State.mtmEnd_mtm]
        exact h.endHold hp
      · exact h
    | presenceLoss x =>
      obtain rfl := Host.Outcome.next.inj hx
      split
      · exact h
      · dsimp only
        split
        · rw [State.reportDislodged_mtm, State.ppcEnd_mtm]; exact h.dislodged x
        · rwa [State.ppcEnd_mtm]
    | motionSet => exact Host.Outcome.next.inj hx ▸ motionSetOwner_ordered.serve h _
    | dropRelease => exact Host.Outcome.next.inj hx ▸ dropReleaseOwner_ordered.serve h _
    | restart => exact Host.Outcome.next.inj hx ▸ restartOwner_ordered.serve h _
    | _ => cases hc

theorem State.tick_ordered {s : State} (h : s.mtm.Ordered) : s.tick.mtm.Ordered :=
  Mtm.Ordered.congr h rfl rfl h.history rfl ((by simp [State.tick, tickTimer] :
    s.tick.mtm.holdTimer.isSome = true ↔ s.mtm.holdTimer.isSome = true).trans h.hold)

/-- Settles O11: `Mtm.Ordered` says `Mtm.sound` by the newest record, every command keeps it (`exec_ordered`), and a millisecond
moves only timers. -/
theorem dropRingStaysSound : Obligations.DropRingStaysSound := by
  unfold Obligations.DropRingStaysSound
  intro s t h hstep
  refine Mtm.Ordered.sound ?_
  have h := h.ordered
  unfold step at hstep
  split at hstep
  · next c rest _ =>
    have hrest : (s.setPending rest).mtm.Ordered := by rwa [State.setPending_mtm]
    exact exec_ordered hrest hstep
  · split at hstep
    · exact exec_ordered h hstep
    · obtain rfl := Host.Outcome.next.inj hstep
      exact State.tick_ordered h

end Sys2Proof.Machine
end

section
/-! The end of an event of MTM (R110, R138, R139): what it raises, and what it leaves where the phase neither leaves IDLE nor returns
to it. ACCEL_STALE (R116, R118, R119). -/

namespace Sys2Proof.Machine

/-! ### The end of an event -/

/-- A delivery of the phase changes RQH's copy alone (R110). -/
theorem State.deliverPhase_rqh_only (s : State) (old new : Phase) :
    (s.deliverPhase old new).rqh = { s.rqh with phaseCopy := (s.deliverPhase old new).rqh.phaseCopy } := by
  unfold State.deliverPhase
  dsimp only
  split
  · rfl
  · split
    · simp
    · split
      · simp
      · rfl

/-- MTM's event before its phase is delivered: the state it leaves, and its events (R138, R139). -/
def State.moved (s : State) (r : Motion) : State := (s.setMtm r.mtm).raise r.pulses [(.motionBlind, !r.mtm.live)]

section
variable (s : State) (r : Motion)

theorem State.mtmEnd_eq : s.mtmEnd r = (s.moved r).deliverPhase s.mtm.phase r.mtm.phase := rfl

@[simp] theorem State.moved_ppc : (s.moved r).ppc = s.ppc := by simp [State.moved]
@[simp] theorem State.moved_lmc : (s.moved r).lmc = s.lmc := by simp [State.moved]
@[simp] theorem State.moved_srt : (s.moved r).srt = s.srt := by simp [State.moved]
@[simp] theorem State.moved_rqh : (s.moved r).rqh = s.rqh := by simp [State.moved]
@[simp] theorem State.moved_mtm : (s.moved r).mtm = r.mtm := by simp [State.moved]

theorem State.moved_onlyEvents : s.ntu.onlyEvents (r.pulses ++ [.motionBlind]) (s.moved r).ntu :=
  (s.setMtm r.mtm).raise_onlyEvents _ _

theorem Told.moved : Told s (s.moved r) := .raise_at (s := s) (u := s.setMtm r.mtm) rfl rfl _ _

/-- Where the phase neither leaves IDLE nor returns to it, the delivery reaches RQH's copy alone (R110). -/
theorem State.mtmEnd_within (h : r.mtm.phase = .idle ↔ s.mtm.phase = .idle) :
    s.mtmEnd r = (s.moved r).setRqh { s.rqh with phaseCopy := (s.mtmEnd r).rqh.phaseCopy } := by
  have hrqh := (s.moved r).deliverPhase_rqh_only s.mtm.phase r.mtm.phase
  rw [State.moved_rqh] at hrqh
  rw [State.mtmEnd_eq, ← hrqh]
  unfold State.deliverPhase
  dsimp only
  by_cases heq : s.mtm.phase = r.mtm.phase
  · rw [if_pos heq]
    rfl
  · have hold : s.mtm.phase ≠ .idle := fun hi => heq (hi.trans (h.2 hi).symm)
    rw [if_neg heq, if_neg hold, if_neg fun hi => hold (h.1 hi)]
    rfl

end

/-- A pulse of MTM's event has occurred. -/
theorem Told.occurred_mtmEnd {s u : State} (h : Told s u) (hlen : s.ntu.table.length = 32) {r : Motion} {e : Event}
    (he : e ∈ r.pulses) : Occurred s (u.mtmEnd r) e :=
  Told.occurred_of_pulse (u.setMtm r.mtm) [(.motionBlind, !r.mtm.live)] (h.trans (.of_same rfl rfl rfl)) hlen he
    (.deliverPhase _ _ _)

/-! ### ACCEL_STALE -/

/-- What ACCEL_STALE leaves, whether a record is open or not; it neither leaves IDLE nor returns to it (R118, R119). -/
theorem Mtm.goBlind_leaves (m : Mtm) : m.goBlind.mtm.live = false ∧ m.goBlind.mtm.staleTimer = none ∧ m.goBlind.mtm.lowRun = 0
    ∧ m.goBlind.mtm.history = m.history ∧ m.goBlind.mtm.nextSeq = m.nextSeq ∧ m.goBlind.mtm.set = m.set
    ∧ (∀ e ∈ m.goBlind.pulses, e = .dropRecorded) ∧ (m.goBlind.mtm.phase = .idle ↔ m.phase = .idle) := by
  unfold Mtm.goBlind
  cases hp : m.phase with
  | idle | hold => exact ⟨rfl, rfl, rfl, rfl, rfl, rfl, nofun, .rfl⟩
  | falling | impact | settle => exact ⟨rfl, rfl, rfl, rfl, rfl, rfl, fun _ he => List.mem_singleton.1 he, ⟨nofun, nofun⟩⟩

/-- The accelerometer becomes BLIND: MOTION_BLIND occurs where its live flag rises (R119, R139). -/
theorem State.goBlind_occurred (s : State) (hlen : s.ntu.table.length = 32) (hl : s.ntu.isLive .motionBlind = false) :
    Occurred s (s.mtmEnd s.mtm.goBlind) .motionBlind := by
  refine Told.occurred_of_raise (u := s.setMtm s.mtm.goBlind.mtm) (ps := s.mtm.goBlind.pulses)
    (cs := [(.motionBlind, !s.mtm.goBlind.mtm.live)]) (.of_same rfl rfl rfl) hlen ?_ (.deliverPhase _ _ _)
  obtain ⟨hlive, _⟩ := s.mtm.goBlind_leaves
  rw [State.mem_raisedCodes, hlive]
  exact .inr ⟨List.mem_singleton_self _, hl⟩

/-- Settles O36: a blind detector ends the low run, and an open record ends as BLIND (`Mtm.Records.goBlind`). -/
theorem accelStaleBlinds : Obligations.AccelStaleBlinds := by
  unfold Obligations.AccelStaleBlinds
  intro s htimer hsound hlen
  have ho := hsound.ordered
  have hx : exec .accelStaleExpiry s = .next (s.mtmEnd s.mtm.goBlind) := by
    show Host.Outcome.next _ = _
    rw [if_pos htimer]
  obtain ⟨hlive, hstale, hlow, hhist, hnext, hset, hpulses, hidle⟩ := s.mtm.goBlind_leaves
  have hend := s.mtmEnd_within s.mtm.goBlind hidle
  refine ⟨_, hx, ?_⟩
  rw [State.mtmEnd_mtm]
  refine ⟨hlive, hstale, hlow, hhist, hnext, hset, s.goBlind_occurred hlen, fun hp => ?quiet, fun hp => ?record, ?_, ?_, ?_, ?_,
    ?_, ?_, ?_⟩
  case quiet =>
    rw [Mtm.goBlind_quiet hp]
  case record =>
    obtain ⟨older, q, hr⟩ := ho.records hp
    obtain ⟨hhold, hleaves⟩ := hr.goBlind (ho.fits q (by rw [hr.ring]; simp)) hp
    obtain ⟨_, htime, _, _, _, hp1⟩ := hleaves.ends hhold
    refine ⟨hhold, htime, (Told.refl s).occurred_mtmEnd hlen (by rw [hp1]; exact List.mem_singleton_self _), fun r hlast => ?_⟩
    rw [hr.ring, List.getLast?_concat] at hlast
    obtain rfl := Option.some.inj hlast
    rw [hleaves.ring, hr.ring, List.dropLast_concat]
  · rw [hend, State.setRqh_ppc, State.moved_ppc]
  · rw [hend, State.setRqh_lmc, State.moved_lmc]
  · rw [hend, State.setRqh_srt, State.moved_srt]
  · rw [hend]; rfl
  · rw [hend]
    exact Ntu.onlyEvents_mono (s.moved_onlyEvents _) fun e he => by
      rcases List.mem_append.1 he with he | he
      · simp [hpulses e he]
      · simp [List.mem_singleton.1 he]
  · exact s.mtmEnd_onlyNotice _
  · exact s.mtmEnd_pending _

end Sys2Proof.Machine
end

section
/-! The requests of MTM (R109, R120). -/

namespace Sys2Proof.Machine

/-- The echo of the motion settings is their arguments: the fields follow each other without a gap. -/
theorem MotionSettings.bytes_ofArgs {a : List Byte} (h : a.length = 17) : (MotionSettings.ofArgs a).bytes = a := by
  unfold MotionSettings.bytes MotionSettings.ofArgs
  simp (disch := omega) only [b8_field, le16_field]
  simp only [List.drop_zero, ← List.take_add, Nat.reduceAdd]
  exact List.take_of_length_le h.le

/-- The ranges and agreements of Table 6-3, by the places of the arguments; the largest values of the widths bind nothing (R109). -/
theorem MotionSettings.ok_ofArgs (a : List Byte) : (MotionSettings.ofArgs a).ok = true ↔
    50 ≤ u16 a 0 ∧ u16 a 0 ≤ 2000 ∧ 1 ≤ u8 a 2 ∧ 2 ≤ u16 a 3 ∧ 1000 ≤ u16 a 5 ∧ u16 a 5 ≤ 28000
      ∧ u16 a 7 ≤ 1000 ∧ 1 ≤ u16 a 9 ∧ 1 ≤ u16 a 11 ∧ 50 ≤ u16 a 13 ∧ u16 a 13 ≤ 60000 ∧ 10 ≤ u16 a 15
      ∧ u16 a 15 ≤ 1000 ∧ u16 a 0 < u16 a 5 ∧ u8 a 2 < u16 a 3 ∧ u16 a 9 ≤ u16 a 11 := by
  have hcount : u8 a 2 ≤ 255 := Nat.le_of_lt_succ (a.getD 2 0#8).isLt
  have hwide : ∀ i, u16 a i ≤ 65535 := fun i => Nat.le_of_lt_succ (u16_lt a i)
  unfold MotionSettings.ok
  simp only [Bool.and_eq_true, decide_eq_true_eq]
  simp only [MotionSettings.ofArgs, hcount, hwide, and_true]
  constructor <;> intro h <;> simp only [h, and_self]

section
variable {s : State} {tag : Byte} {a : List Byte}

/-- Settings in range: stored and echoed (R109). -/
theorem motionSetOwner_ok (h : (MotionSettings.ofArgs a).ok = true) (hl : a.length = 17) :
    motionSetOwner a s = ⟨s.setMtm { s.mtm with set := .ofArgs a }, .ok, a⟩ := by
  have ho : motionSetOwner a s = Answer.ok _ _ := if_pos h
  rw [ho, MotionSettings.bytes_ofArgs hl]
  rfl

/-- Settings out of range are refused whole (R109). -/
theorem motionSetOwner_bad (h : ¬(MotionSettings.ofArgs a).ok = true) : motionSetOwner a s = ⟨s, .badField, []⟩ := if_neg h

/-- A request whose owner changes MTM alone changes MTM and the reply (R154). -/
theorem State.serve_mtm {c : RequestCode} {owner : List Byte → State → Answer} {m : Mtm} {p : List Byte}
    (hs : Serving s c tag a) (hl : c.lengthOk a = true) (hr : c.reservedSet a = false)
    (ho : owner a s = ⟨s.setMtm m, .ok, p⟩) :
    Answered s (s.serve c owner) tag .ok p ∧ OnlyOwnReply s (s.serve c owner) ∧ (s.serve c owner).ntu = s.ntu
      ∧ (s.serve c owner).mtm = m := by
  have hans := s.serve_answered c owner tag a hs hl hr (by rw [ho]; rfl) (by rw [ho]; rfl)
  rw [ho] at hans
  refine ⟨hans, ?_⟩
  rw [s.serve_ok c owner tag a hs hl hr, ho]
  exact ⟨⟨by simp, by simp, by simp, by simp, State.answer_onlyNorth _ _ _ _⟩, by simp, by simp⟩

end

/-- The MOTION_STATUS payload with the history's places counted in bytes (R120). -/
theorem Mtm.statusBytes_eq (m : Mtm) : m.statusBytes =
    [BitVec.ofNat 8 m.phase.code, BitVec.ofNat 8 m.lowRun, BitVec.ofNat 8 m.midRun]
      ++ le16 m.quiet ++ le16 m.settled ++ optField 1 (fun i => [BitVec.ofNat 8 i]) m.accelIndex
      ++ optField 2 le16 m.lastMag ++ [BitVec.ofNat 8 m.history.length] ++ m.history.flatMap le16
      ++ List.replicate (16 - 2 * m.history.length) 0#8 ++ flag (!m.live)
      ++ optField 2 le16 m.staleTimer ++ optField 2 le16 m.holdTimer
      ++ optField 2 le16 ((m.ring.find? (·.isOpen)).map (·.seq)) ++ m.set.bytes := by
  have hplaces : 2 * (Config.historyPlaces - m.history.length) = 16 - 2 * m.history.length := Nat.mul_sub 2 8 _
  unfold Mtm.statusBytes
  rw [hplaces]
  rfl

/-- Settles O53: MOTION_SET by the range check of its arguments, MOTION_STATUS as a request that changes nothing. -/
theorem motionRequestsAnswer : Obligations.MotionRequestsAnswer := by
  unfold Obligations.MotionRequestsAnswer
  refine fun s tag => ⟨fun a hs hlen => ?set, fun hs => ?status⟩
  case set =>
    have hl : RequestCode.motionSet.lengthOk a = true := by simpa [RequestCode.lengthOk, RequestCode.argLength] using hlen
    dsimp only
    rw [← MotionSettings.ok_ofArgs a]
    exact ⟨fun hbad => ⟨_, rfl, s.serve_only _ _ tag a _ _ hs hl rfl (motionSetOwner_bad hbad)⟩,
      fun hok => ⟨_, rfl, State.serve_mtm hs hl rfl (motionSetOwner_ok hok hlen)⟩⟩
  case status =>
    obtain ⟨hans, honly⟩ := s.serve_only .motionStatus (fun _ s => Answer.ok s s.mtm.statusBytes) tag [] _ _ hs rfl rfl rfl
    rw [Mtm.statusBytes_eq] at hans
    exact ⟨_, rfl, honly, hans⟩

end Sys2Proof.Machine
end

section
/-! An ACCEL sample while a record is open, over a whole step (R106, R107, R113 to R116, R127, R128). -/

namespace Sys2Proof.Machine

/-! ### The way of an ACCEL sample -/

/-- The sample reaches MTM from the state that the northbound path leaves (R2, R6, R107). -/
theorem exec_accelSample (p : PortId) {f : WireFrame} {s : State} {i : Nat} {e : RouteEntry} (h : Tapped s f i e .accel) :
    exec (.sampleFrameReceived p f) s
      = .next (((s.hunted p).northbound i e (sampleOf f.body)).accelTap i (sampleOf f.body).payload) := by
  obtain ⟨hgood, hentry, htap, hkind, hrestart⟩ := h
  have hstep := s.receivePort_matched p f i e hgood hrestart hentry
  rw [htap, State.tapDeliver_accel _ _ hkind] at hstep
  exact congrArg Host.Outcome.next hstep

/-- The northbound path keeps the override (R3 to R5, R19). -/
theorem State.northbound_override (p : PortId) {f : WireFrame} {s : State} {i : Nat} {e : RouteEntry} {role : TapRole}
    (h : Tapped s f i e role) :
    ((s.hunted p).northbound i e (sampleOf f.body)).srt.overrideEntry = s.srt.overrideEntry := by
  obtain ⟨_, hentry, _⟩ := h
  have hi : (s.hunted p).srt.table[i]? = some e := ((Srt.entryFor_iff _ _ _ _).1 hentry).2
  rw [State.northbound_srt _ i e _ hi]
  rfl

theorem pushHistory_eq (history : List Nat) (mag : Nat) :
    pushHistory history mag = (if history.length < 8 then history else history.drop 1) ++ [mag] := rfl

/-! ### The newest record -/

section
variable {m after : Mtm} {r r' : DropRecord} {a : Accel} (hp : m.phase.recording = true)
  (hfall : m.phase = .falling → FallTested m r a after r') (himpact : m.phase = .impact → ImpactTested m r a after r')
  (hbounce : m.phase = .settle → BounceTested m r a after r')
include hp hfall himpact hbounce

/-- In every phase an impact sample is taken by a record with the trace so far (R114). -/
theorem DropRecord.tested_impact (hi : m.set.impactThresh ≤ a.magnitude) :
    ∃ b : DropRecord, b.trace = r.trace ∧ r' = b.impact a m.history := by
  cases hph : m.phase with
  | idle | hold => rw [hph] at hp; cases hp
  | falling => exact ⟨{ r with fallLength := heldAt r.fallLength 65535, kind := .fallLanded }, rfl, ((hfall hph).lands hi).2⟩
  | impact =>
    obtain ⟨_, _, hr'⟩ := (himpact hph).further hi
    exact ⟨r, rfl, hr'⟩
  | settle =>
    obtain ⟨_, _, _, hr'⟩ := (hbounce hph).bounces hi
    exact ⟨{ r with bounces := heldAt r.bounces 15 }, rfl, hr'⟩

/-- A sample below IMPACT_THRESH moves no part of the trace (R114). -/
theorem DropRecord.tested_below (hl : a.magnitude < m.set.impactThresh) : r'.trace = r.trace := by
  cases hph : m.phase with
  | idle | hold => rw [hph] at hp; cases hp
  | falling =>
    have ht := hfall hph
    by_cases hmid : m.set.ffThresh ≤ a.magnitude ∧ m.set.ffCount ≤ heldAt m.midRun 255
    · rw [(ht.isCaught hl hmid.1 hmid.2).1]; rfl
    · have hmid : a.magnitude < m.set.ffThresh ∨ heldAt m.midRun 255 < m.set.ffCount := by omega
      by_cases hlong : m.set.ffMax ≤ heldAt r.fallLength 65535
      · rw [(ht.aborts hl hmid hlong).2]; rfl
      · rw [(ht.falls hl hmid hlong).2.1]; rfl
  | impact => rw [((himpact hph).ends hl).1]; rfl
  | settle => rw [((hbounce hph).settles hl).1]; rfl

/-- A further impact keeps the larger peak, and the lead count (R114, R127). -/
theorem DropRecord.tested_peak (hi : m.set.impactThresh ≤ a.magnitude) {q : Peak} (hq : r.peak = some q) :
    r'.peak = some (if q.magnitude < a.magnitude then a.peak else q) ∧ r'.lead = r.lead ∧ r'.capture = r.capture := by
  obtain ⟨b, hb, hr'⟩ := DropRecord.tested_impact hp hfall himpact hbounce hi
  simp only [DropRecord.trace, Prod.mk.injEq] at hb
  obtain ⟨hbp, hbl, hbc⟩ := hb
  rw [hr', b.impact_further a m.history (hbp.trans hq)]
  exact ⟨rfl, hbl, hbc⟩

/-- With its head built, the capture list of a record only takes the sample (R128). -/
theorem DropRecord.tested_capture (hf : r.Fits) (hlead : r.lead.isSome = true) : r'.capture = r.capture := by
  by_cases hi : m.set.impactThresh ≤ a.magnitude
  · obtain ⟨q, hq⟩ := Option.isSome_iff_exists.1 (hf.lead.trans hlead)
    exact (DropRecord.tested_peak hp hfall himpact hbounce hi hq).2.2
  · have ht := DropRecord.tested_below hp hfall himpact hbounce (not_le.1 hi)
    simp only [DropRecord.trace, Prod.mk.injEq] at ht
    exact ht.2.2

end

section
variable {m after : Mtm} {r r' : DropRecord} {a : Accel}

/-- A sample in FALLING counts the length of the fall, whatever it finds (R113). -/
theorem FallTested.fallLength_eq (h : FallTested m r a after r') : r'.fallLength = heldAt r.fallLength 65535 := by
  by_cases hi : m.set.impactThresh ≤ a.magnitude
  · rw [(h.lands hi).2, DropRecord.impact_only]
  · have hl := not_le.1 hi
    by_cases hmid : m.set.ffThresh ≤ a.magnitude ∧ m.set.ffCount ≤ heldAt m.midRun 255
    · rw [(h.isCaught hl hmid.1 hmid.2).1]
    · have hmid : a.magnitude < m.set.ffThresh ∨ heldAt m.midRun 255 < m.set.ffCount := by omega
      by_cases hlong : m.set.ffMax ≤ heldAt r.fallLength 65535
      · rw [(h.aborts hl hmid hlong).2]
      · rw [(h.falls hl hmid hlong).2.1]

/-- A sample in IMPACT or SETTLE moves neither the length of the fall nor the kind (R114, R115). -/
theorem DropRecord.tested_kept (hp : m.phase.recording = true) (himpact : m.phase = .impact → ImpactTested m r a after r')
    (hbounce : m.phase = .settle → BounceTested m r a after r') (hne : m.phase ≠ .falling) :
    r'.fallLength = r.fallLength ∧ r'.kind = r.kind := by
  cases hph : m.phase with
  | idle | hold => rw [hph] at hp; cases hp
  | falling => exact absurd hph hne
  | impact =>
    by_cases hi : m.set.impactThresh ≤ a.magnitude
    · obtain ⟨_, _, hr'⟩ := (himpact hph).further hi
      rw [hr', DropRecord.impact_only]
      exact ⟨rfl, rfl⟩
    · rw [((himpact hph).ends (not_le.1 hi)).1]
      exact ⟨rfl, rfl⟩
  | settle =>
    by_cases hi : m.set.impactThresh ≤ a.magnitude
    · obtain ⟨_, _, _, hr'⟩ := (hbounce hph).bounces hi
      rw [hr', DropRecord.impact_only]
      exact ⟨rfl, rfl⟩
    · rw [((hbounce hph).settles (not_le.1 hi)).1]
      exact ⟨rfl, rfl⟩

/-- Where a count stands within its bound, holding it there is the smaller of both (R115). -/
theorem heldAt_eq_min {n top : Nat} (h : n ≤ top) : heldAt n top = min (n + 1) top := by
  unfold heldAt
  split <;> omega

/-- While a record is open no sample brings the phase back to IDLE (R117). -/
theorem Mtm.Leaves.phase_ne_idle {older : List DropRecord} {x : Motion} (h : m.Leaves older r x r') :
    x.mtm.phase ≠ .idle := fun hi => by
  obtain ⟨_, hrec, _⟩ := h.goesOn (by rw [hi]; nofun)
  rw [hi] at hrec
  cases hrec

/-- Entry to HOLD alone raises an event (R116). -/
theorem Mtm.Leaves.pulses_eq {older : List DropRecord} {x : Motion} (h : m.Leaves older r x r') :
    ∀ e ∈ x.pulses, e = .dropRecorded := fun e he => by
  by_cases hh : x.mtm.phase = .hold
  · obtain ⟨_, _, _, _, _, hone⟩ := h.ends hh
    exact List.mem_singleton.1 (hone ▸ he)
  · obtain ⟨_, _, _, hnone⟩ := h.goesOn hh
    rw [hnone] at he
    cases he

/-- What an ACCEL sample leaves that finds a record open: what its phase step leaves, and the history with the sample (R107). -/
theorem Mtm.Records.accelSample {older : List DropRecord} (hr : m.Records older r) (hf : r.Fits) (hh : m.history.length ≤ 8)
    (hp : m.phase.recording = true) (a : Accel) (i : Nat) (c : DropContext) :
    ∃ x r', m.accelSample a i c = { mtm := { x.mtm with history := pushHistory m.history a.magnitude }, pulses := x.pulses }
      ∧ m.Leaves older r x r'
      ∧ (m.phase = .falling → FallTested m (r.append a.magnitude) a x.mtm r')
      ∧ (m.phase = .impact → ImpactTested m (r.append a.magnitude) a x.mtm r')
      ∧ (m.phase = .settle → BounceTested m (r.append a.magnitude) a x.mtm r') := by
  have hr1 : (m.stored a i).Records older r := ⟨hr.ring, hr.closed, hr.isOpen⟩
  obtain ⟨r', hl, hfall, himpact, hbounce⟩ := hr1.phaseStep hf hh hp a c
  refine ⟨_, r', ?_, ⟨hl.ring, hl.fits, hl.origin, hl.nextSeq, hl.history, hl.goesOn, hl.ends⟩, fun h => ?_, fun h => ?_,
    fun h => ?_⟩
  · exact congrArg (fun history => Motion.mk { ((m.stored a i).phaseStep a c).mtm with
      history := pushHistory history a.magnitude } ((m.stored a i).phaseStep a c).pulses) hl.history
  · obtain ⟨lands, isCaught, aborts, falls⟩ := hfall h
    exact ⟨lands, isCaught, aborts, falls⟩
  · obtain ⟨further, ends⟩ := himpact h
    exact ⟨further, ends⟩
  · obtain ⟨bounces, settles⟩ := hbounce h
    exact ⟨bounces, settles⟩

/-- Settles O25: the northbound path leaves MTM as it was, the phase machine tests the sample against the newest record
(`Mtm.Records.phaseStep`), and the end of the event reaches RQH's copy of the phase alone. -/
theorem accelSampleInARecord : Obligations.AccelSampleInARecord := by
  unfold Obligations.AccelSampleInARecord
  intro p f s i e r htap hsound hp hlast hlen
  refine ⟨_, exec_accelSample p htap, ?_⟩
  have hreach := s.reached p i e (sampleOf f.body)
  have hsrt := State.northbound_override p htap
  generalize (s.hunted p).northbound i e (sampleOf f.body) = u at hreach hsrt ⊢
  have ho := hsound.ordered
  obtain ⟨older, q, hr⟩ := ho.records hp
  obtain rfl : q = r := by
    rw [hr.ring, List.getLast?_concat] at hlast
    exact Option.some.inj hlast
  have hf := ho.fits q (by rw [hr.ring]; simp)
  unfold State.accelTap
  rw [hreach.mtm, hreach.ppc]
  generalize Accel.ofPayload (sampleOf f.body).payload = a
  obtain ⟨hmag, _⟩ := s.mtm.accelSample_stores a i s.ppc.dropContext
  obtain ⟨x, r', hx, hleaves, hfall, himpact, hbounce⟩ := hr.accelSample hf ho.history hp a i s.ppc.dropContext
  rw [hx] at hmag ⊢
  generalize hy : (⟨{ x.mtm with history := pushHistory s.mtm.history a.magnitude }, x.pulses⟩ : Motion) = y
  have hidle : y.mtm.phase = .idle ↔ u.mtm.phase = .idle := by
    rw [← hy, hreach.mtm]
    exact iff_of_false (hleaves.phase_ne_idle ·) (by rintro h; rw [h] at hp; cases hp)
  have hend := u.mtmEnd_within y hidle
  have horigin := hleaves.origin
  simp only [DropRecord.origin, Prod.mk.injEq] at horigin
  obtain ⟨hseq, hsource, hswap, hdislodgedA, hdislodgedB⟩ := horigin
  have hcap := q.append_capture a.magnitude
  have hlate := DropRecord.tested_capture hp hfall himpact hbounce (hf.append a.magnitude)
  obtain ⟨cap, hq1⟩ : ∃ cap, q.append a.magnitude = { q with capture := cap } := ⟨_, q.append_only _⟩
  rw [hq1] at hcap hlate hfall himpact hbounce
  have hopen : ∀ {ph}, x.mtm.phase = ph → ph ≠ .hold → r'.isOpen = true := fun hph hne => (hleaves.goesOn (hph ▸ hne)).1
  rw [State.mtmEnd_mtm, ← hy]
  refine ⟨r', ?ring, hseq, hsource, hswap, hdislodgedA, hdislodgedB, fun hph => (hfall hph).fallLength_eq,
    DropRecord.tested_kept (r := { q with capture := cap }) hp himpact hbounce, fun hph hi => ?lands, fun hph hl hmid hn => ?caught,
    fun hph hl hmid hlong => ?aborts, fun hph hl hmid hlong => ?falls, fun hph hi => ?further, fun hph hl => ?ends,
    fun hph hi => ?bounces, fun hph hl => ?settles, fun hi w hw => ?peak, fun hhold => ?hold, fun hlead hroom => ?room,
    fun hlead hfull => ?full, ?history, hmag, ?ppc, ?lmc, ?srt, ?events⟩
  case ring => rw [hr.ring, List.dropLast_concat]; exact hleaves.ring
  case lands =>
    obtain ⟨hphase, hr'⟩ := (hfall hph).lands hi
    refine ⟨hphase, by rw [hr', DropRecord.impact_only], hopen hphase nofun, fun hnone => ?_⟩
    rw [hr', DropRecord.impact_first]
    · exact ⟨⟨_, rfl, a.peakOf⟩, rfl, rfl⟩
    · exact hnone
    · rfl
  case caught =>
    obtain ⟨hr', htest⟩ := (hfall hph).isCaught hl hmid hn
    exact ⟨by rw [hr'], htest⟩
  case aborts =>
    obtain ⟨hphase, hr'⟩ := (hfall hph).aborts hl hmid hlong
    rw [hr']
    exact ⟨hphase, rfl, rfl, rfl⟩
  case falls =>
    obtain ⟨hphase, hr', hrun⟩ := (hfall hph).falls hl hmid hlong
    exact ⟨hphase, by rw [hr'], hopen hphase nofun, hrun⟩
  case further =>
    obtain ⟨hphase, hsettled, hr'⟩ := (himpact hph).further hi
    exact ⟨hphase, hopen hphase nofun, hsettled, by rw [hr', DropRecord.impact_only]⟩
  case ends =>
    obtain ⟨hr', htest⟩ := (himpact hph).ends hl
    exact ⟨htest, by rw [hr'], by rw [hr']⟩
  case bounces =>
    obtain ⟨hphase, hquiet, hsettled, hr'⟩ := (hbounce hph).bounces hi
    refine ⟨hphase, hquiet, ?_, hopen hphase nofun, hsettled⟩
    rw [hr', DropRecord.impact_only]
    exact heldAt_eq_min hf.bounces
  case settles =>
    obtain ⟨hr', htest⟩ := (hbounce hph).settles hl
    exact ⟨htest, by rw [hr'], by rw [hr']⟩
  case peak =>
    obtain ⟨hpeak, hlead, _⟩ := DropRecord.tested_peak hp hfall himpact hbounce hi hw
    refine ⟨_, hpeak, fun hle => if_neg (not_lt.2 hle), fun hlt => ?_, hlead⟩
    rw [if_pos hlt]
    exact a.peakOf
  case hold =>
    obtain ⟨hclosed, htimer, hlow, hmid, hquiet, hone⟩ := hleaves.ends hhold
    refine ⟨hclosed, htimer, hlow, hmid, hquiet, ?_⟩
    exact hreach.told.occurred_mtmEnd hlen (by rw [hone]; exact List.mem_singleton_self _)
  case room => exact (hlate hlead).trans (hcap.trans (if_pos ⟨hlead, hroom⟩))
  case full => exact (hlate hlead).trans (hcap.trans (if_neg fun h => absurd h.2 (not_lt.2 hfull)))
  case history => exact pushHistory_eq _ _
  case ppc => rw [hy, hend, State.setRqh_ppc, State.moved_ppc, hreach.ppc]
  case lmc => rw [hy, hend, State.setRqh_lmc, State.moved_lmc, hreach.lmc]
  case srt => rw [hy, hend, State.setRqh_srt, State.moved_srt, hsrt]
  case events =>
    have hmoved := u.moved_onlyEvents y
    rw [hy, hend, State.setRqh_ntu]
    rw [← hy] at hmoved ⊢
    refine Ntu.onlyEvents_trans (Ntu.onlyEvents_mono hreach.events (by simp)) (Ntu.onlyEvents_mono hmoved fun e he => ?_)
    rcases List.mem_append.1 he with he | he
    · simp [hleaves.pulses_eq e he]
    · simp [List.mem_singleton.1 he]

end

end Sys2Proof.Machine
end

section
/-! An ACCEL sample in IDLE or HOLD, over a whole step (R19, R54, R79, R97, R107, R108, R110 to R112, R114, R117, R126, R127, R131). -/

namespace Sys2Proof.Machine

/-! ### What a later link says of an earlier state -/

/-- After an occurrence no entry waits to be notified (R138, R140). -/
theorem Occurred.allJudged {s t : State} {e : Event} (h : Occurred s t e) (h1 : Told s t) : t.ntu.allJudged := fun k b hb => by
  obtain ⟨_, hj, _⟩ := h
  obtain ⟨es, _, _, hlen, _⟩ := h1.events
  have hlt : k < s.ntu.table.length := hlen ▸ (List.getElem?_eq_some_iff.1 hb).1
  have hiff := hj k _ b (List.getElem?_eq_getElem hlt) hb
  by_contra hel
  obtain ⟨hlat, hnot, hmay⟩ := (Ntu.eligible_iff t.ntu k b).1 (by simpa using hel)
  have hn := hiff.2 (.inr ⟨hlat, hmay⟩)
  rw [hnot] at hn
  cases hn

section
variable {s u t : State} (h1 : Told s u) (h2 : Told u t)
include h1 h2

/-- What occurs at a link of a chain has occurred since the chain began. -/
theorem Occurred.since {e : Event} (h : Occurred u t e) : Occurred s t e := by
  have hj := h.allJudged h2
  obtain ⟨hl, _⟩ := h
  exact (h1.trans h2).occurred hl hj

/-- What carrying alone brings with it, from the beginning of a chain whose first links leave PPC, LMC and BRIDGE_ALONE alone. -/
theorem AloneFollows.since (hp : u.ppc = s.ppc) (hl : u.lmc = s.lmc)
    (hb : u.ntu.isLive .bridgeAlone = s.ntu.isLive .bridgeAlone) (h : AloneFollows u t) : AloneFollows s t := by
  obtain ⟨hbegin, hend⟩ := h
  unfold AloneFollows
  dsimp only
  rw [← hp, ← hl, ← hb]
  refine ⟨fun h0 h1' => ?_, hend⟩
  obtain ⟨hlive, hrise, hx, hwait, hrun⟩ := hbegin h0 h1'
  refine ⟨hlive, fun hn => (hrise hn).since h1 h2, hx, hwait, fun hxf g hg => ?_⟩
  obtain ⟨hw, hz⟩ := hrun hxf g hg
  exact ⟨hw, fun hw0 => ⟨(hz hw0).1, (hz hw0).2.since h1 h2⟩⟩

end

/-! ### Freeze and override -/

/-- The override begins on the entry of the last ACCEL sample, if it is valid (R19). -/
theorem State.overrideOn_of_valid {s : State} {i : Nat} (hi : s.mtm.accelIndex = some i)
    (hv : (s.srt.table[i]?).any (·.valid) = true) : s.overrideOn = s.setSrt { s.srt with overrideEntry := some i } := by
  unfold State.overrideOn
  rw [hi]
  exact if_pos hv

/-- The freeze is read by no recomputation (R79, R96). -/
theorem Lmc.Recomputed.freeze {m m' : Lmc} (h : m.Recomputed m') (b : Bool) :
    ({ m with freeze := b } : Lmc).Recomputed { m' with freeze := b } := by
  obtain ⟨hm, hrest⟩ := h
  exact ⟨congrArg (fun k : Lmc => { k with freeze := b }) hm, hrest⟩

/-- The delivery of C_power with the freeze turned on behind it (R62, R79). -/
theorem CeilingDelivered.freezeOn {m : Lmc} {s u : State} (h : CeilingDelivered m s u) :
    CeilingDelivered { m with freeze := true } s u.freezeOn := by
  obtain ⟨hd, hsame, hnew⟩ := h
  refine ⟨hd, fun heq => ?_, fun hne => ?_⟩
  · obtain ⟨hl, hcut⟩ := hsame heq
    exact ⟨congrArg (fun k : Lmc => { k with freeze := true }) hl, hcut⟩
  · obtain ⟨hout, hre, hfault, hcut, hno⟩ := hnew hne
    exact ⟨hout, hre.freeze true, hfault, hcut, hno⟩

/-- C_power was delivered, and an event that reaches neither PPC nor LMC raises no cut (R62). -/
theorem CeilingDelivered.of_same {s t : State} (hc : s.underCeiling) (hp : t.ppc = s.ppc) (hl : t.lmc = s.lmc)
    (hcut : t.ntu.isLatched .ceilingCut = s.ntu.isLatched .ceilingCut) :
    CeilingDelivered { s.lmc with freeze := t.lmc.freeze } s t := by
  obtain ⟨hdelivered, _⟩ := hc
  unfold CeilingDelivered
  dsimp only
  rw [hp, hl]
  exact ⟨hdelivered.symm, fun _ => ⟨rfl, hcut⟩, fun hne => absurd hdelivered hne⟩

theorem AloneFollows.of_same {s t : State} (hp : t.ppc = s.ppc) : AloneFollows s t := by
  unfold AloneFollows
  dsimp only
  rw [hp]
  exact ⟨fun h0 h1 => absurd (h0.symm.trans h1) Bool.false_ne_true, fun h0 h1 => absurd (h1.symm.trans h0) Bool.false_ne_true⟩

/-! ### Brace in a safe state -/

/-- Closing SW_BR for brace moves no main switch. -/
theorem Ppc.braceOn_main (p : Ppc) : p.braceOn.mainClosed = p.mainClosed ∧ p.closedMainSince p.braceOn = false := by
  rw [p.braceOn_only]
  exact ⟨rfl, by simp [Ppc.closedMainSince]⟩

/-- A safe bridge that brace closes was not needed: something else carries (R53, R54). -/
theorem Ppc.safe.braceOn_carriesAlone {p : Ppc} (h : p.safe) : p.braceOn.carriesAlone = p.carriesAlone := by
  obtain ⟨_, _, _, _, _, _, _, hneeded, _⟩ := h
  unfold Ppc.carriesAlone
  rw [(p.braceOn_main).1]
  cases hm : p.mainClosed with
  | true => rw [Bool.not_true, Bool.and_false, Bool.and_false]
  | false =>
    rw [Bool.not_false, Bool.and_true, Bool.and_true]
    unfold Ppc.braceOn Ppc.closeBridge
    split
    · next hf => exact (hneeded hf (by simp [Ppc.bridgeNeeded, hm])).symm
    · rfl

/-- A settlement that closes no main switch, with carrying alone in step, leaves the bridge record (R56). -/
theorem Ppc.settle_bridge_inStep {before p : Ppc} (hm : before.closedMainSince p = false) (ha : p.bridge.alone = p.carriesAlone)
    (out : Nat) : (before.settle p out).bridge = p.bridge := by
  have hb1 : before.settleBridge p = { p.bridge with alone := p.bridge.alone } := by
    unfold Ppc.settleBridge
    simp only [← ha, hm]
    cases p.bridge.alone <;> simp
  have hw : before.windowStart p = none := by
    unfold Ppc.windowStart
    simp [← ha]
  unfold Ppc.settle
  simp only [hw, hb1]

/-- Under safe the beginning of brace moves the switch of the bridge alone (R54). -/
theorem State.braceOn_bridge {s : State} (h : s.ppc.safe) :
    s.braceOn.ppc.bridge = { s.ppc.bridge with switch := s.braceOn.ppc.bridge.switch } := by
  have hbrace : s.ppc.braceOn.bridge = { s.ppc.bridge with switch := s.ppc.braceOn.bridge.switch } := by rw [s.ppc.braceOn_only]
  have hstill : s.braceOn.ppc.bridge = s.ppc.braceOn.bridge := by
    unfold State.braceOn State.ppcEnd
    split
    · rw [State.ppcQuiet_ppc]
    · rw [State.ppcSettle_ppc]
      refine Ppc.settle_bridge_inStep s.ppc.braceOn_main.2 ?_ s.lmc.out
      rw [s.ppc.braceOn_alone, h.inStep, h.braceOn_carriesAlone]
  rw [hstill]
  exact hbrace

/-- A budget that is settled and delivered is the one of the packs, the settings and the sources (R56, R57, R62). -/
theorem Ppc.settled.budget_eq {p q : Ppc} (hp : p.settled) (hq : q.settled)
    (honly : q = { p with brace := q.brace, budget := q.budget, bridge := q.bridge })
    (hexhausted : q.bridge.exhausted = p.bridge.exhausted) (hcarries : q.carriesAlone = p.carriesAlone) (hdp : p.budget.cPower = p.budget.delivered)
    (hdq : q.budget.cPower = q.budget.delivered) : q.budget = p.budget := by
  have hA : q.packA = p.packA := by rw [honly]
  have hB : q.packB = p.packB := by rw [honly]
  have hdc : q.swDc = p.swDc := by rw [honly]
  have hpower : q.power = p.power := by rw [honly]
  have hset : q.bridgeSet = p.bridgeSet := by rw [honly]
  have hmax : q.pBlMax = p.pBlMax := by rw [honly]
  have hbridge : ∀ r : Ppc, (r.bridge.switch && !r.swDc && !r.packA.switch && !r.packB.switch) = r.carriesAlone := fun r => by
    simp only [Ppc.carriesAlone, Ppc.mainClosed, Bool.not_or, Bool.and_assoc]
  obtain ⟨hpAv, haBl, hc⟩ := hp
  obtain ⟨hqAv, hqBl, hqc⟩ := hq
  rw [hbridge] at hpAv hqAv
  have h1 : q.budget.pAv = p.budget.pAv := by rw [hqAv, hpAv, hdc, hpower, hA, hB, hcarries, hset]
  have h2 : q.budget.aBl = p.budget.aBl := by rw [hqBl, haBl, h1, hpower, hmax]
  have h3 : q.budget.cPower = p.budget.cPower := by rw [hqc, hc, h2, hmax, hexhausted]
  have h4 : q.budget.delivered = p.budget.delivered := by rw [← hdq, h3, hdp]
  calc q.budget = ⟨q.budget.pAv, q.budget.aBl, q.budget.cPower, q.budget.delivered⟩ := rfl
    _ = p.budget := by rw [h1, h2, h3, h4]

/-! ### The sample leaves IDLE -/

/-- MTM's event that leaves IDLE, its phase delivered: brace and freeze are on, the override stands on the entry of the sample, and
RQH has its copy (R19, R54, R79, R110). -/
def State.armed (v : State) (i : Nat) (q : Rqh) : State :=
  ((v.braceOn.setSrt { v.srt with overrideEntry := some i }).setRqh q).freezeOn

theorem State.mtmEnd_armed {s : State} {r : Motion} {i : Nat} (hs : s.mtm.phase = .idle) (hr : r.mtm.phase ≠ .idle)
    (hi : r.mtm.accelIndex = some i) (hv : (s.srt.table[i]?).any (·.valid) = true) :
    s.mtmEnd r = (s.moved r).armed i { s.rqh with phaseCopy := r.mtm.phase } := by
  have hover : (s.moved r).braceOn.freezeOn.overrideOn
      = (s.moved r).braceOn.freezeOn.setSrt { (s.moved r).braceOn.srt with overrideEntry := some i } :=
    State.overrideOn_of_valid (by rw [State.freezeOn_mtm, State.braceOn_mtm, State.moved_mtm, hi])
      (by rwa [State.freezeOn_srt, State.braceOn_srt, State.moved_srt])
  rw [State.mtmEnd_eq]
  unfold State.deliverPhase
  dsimp only
  rw [if_neg fun h => hr (h.symm.trans hs), if_pos hs, hover, State.braceOn_srt]
  have hrqh : ((s.moved r).braceOn.freezeOn.setSrt { (s.moved r).srt with overrideEntry := some i }).rqh = s.rqh := by
    rw [State.setSrt_rqh, State.freezeOn_rqh, State.braceOn_rqh, State.moved_rqh]
  rw [hrqh]
  rfl

section
variable (v : State) (i : Nat) (q : Rqh)

theorem State.armed_ppc : (v.armed i q).ppc = v.braceOn.ppc := rfl
theorem State.armed_lmc : (v.armed i q).lmc = { v.braceOn.lmc with freeze := true } := rfl
theorem State.armed_srt : (v.armed i q).srt = { v.srt with overrideEntry := some i } := rfl
theorem State.armed_rqh : (v.armed i q).rqh = q := rfl

theorem Settled.armed : Settled v.braceOn ((v.braceOn.setSrt { v.srt with overrideEntry := some i }).setRqh q) :=
  ⟨.of_same rfl rfl rfl, rfl, rfl, rfl⟩

theorem Told.armed : Told v (v.armed i q) := (Told.braceOn v).trans (.of_same rfl rfl rfl)

theorem State.armed_brace : (v.armed i q).ppc.brace = true := by
  rw [State.armed_ppc, State.braceOn, State.ppcEnd_ppc_brace, v.ppc.braceOn_only]

/-- Carrying alone through the beginning of brace (R54, R56). -/
theorem State.armed_alone (hlen : v.ntu.table.length = 32) : AloneFollows v (v.armed i q) :=
  (Settled.armed v i q).aloneFollows (.braceOn v)
    ((Reached.refl v).alone_ppcEnd hlen (by rw [v.ppc.braceOn_only]) List.not_mem_nil)

/-- The fitted bridge closes, another switch stays (R54). -/
theorem State.armed_switch : (v.ppc.bridge.fitted = true → (v.armed i q).ppc.bridge.switch = true)
    ∧ (v.ppc.bridge.fitted = false → (v.armed i q).ppc.bridge.switch = v.ppc.bridge.switch) := by
  have hswitch : (v.armed i q).ppc.bridge.switch = v.ppc.braceOn.bridge.switch := v.ppcEnd_ppc_switch _ _
  rw [hswitch]
  unfold Ppc.braceOn Ppc.closeBridge
  refine ⟨fun hf => ?_, fun hf => ?_⟩
  · rw [if_pos hf]
  · rw [if_neg (by simp [hf])]

end

/-- The C_power that the beginning of brace leaves reaches LMC, which then is frozen (R54, R62, R79). -/
theorem LightQuiet.delivered_armed {s v : State} (h : LightQuiet s v) (hp : v.ppc = s.ppc) (hl : v.lmc = s.lmc)
    (hc : s.underCeiling) (i : Nat) (q : Rqh) :
    CeilingDelivered { s.lmc with freeze := (v.armed i q).lmc.freeze } s (v.armed i q) := by
  obtain ⟨hdelivered, _⟩ := hc
  have hbrace : CeilingDelivered v.lmc s v.braceOn :=
    h.delivered_ppcEnd (by rw [v.ppc.braceOn_only, hp]) hdelivered List.not_mem_nil List.not_mem_nil
  rw [hl] at hbrace
  exact ((Settled.armed v i q).ceilingDelivered (h.told.trans (.braceOn v)) hbrace).freezeOn

section
variable {s v : State} (hp : v.ppc = s.ppc) (hl : v.lmc = s.lmc) (i : Nat) (q : Rqh)
include hp hl

theorem KeepsBudget.armed : KeepsBudget s (v.armed i q) :=
  ((KeepsBudget.of_same hp hl).trans (.braceOn v)).trans (.of_light rfl (.of_same ⟨rfl, rfl, rfl⟩))

/-- Under safe the bridge record changes by its switch alone, and a budget that is settled and delivered stays (R54, R56). -/
theorem State.armed_safe (hs : s.ppc.safe) :
    (v.armed i q).ppc.bridge = { s.ppc.bridge with switch := (v.armed i q).ppc.bridge.switch }
      ∧ (s.ppc.settled → s.underCeiling → (v.armed i q).ppc.budget = s.ppc.budget) := by
  have hkeeps := KeepsBudget.armed hp hl i q
  have hbridge : (v.armed i q).ppc.bridge = { s.ppc.bridge with switch := (v.armed i q).ppc.bridge.switch } := by
    have hb := State.braceOn_bridge (s := v) (by rwa [hp])
    rw [hp] at hb
    exact hb
  refine ⟨hbridge, fun hset hceil => ?_⟩
  have hcarries : (v.armed i q).ppc.carriesAlone = s.ppc.carriesAlone := by
    rw [← (hkeeps.safe hs).inStep, ← hs.inStep, hbridge]
  obtain ⟨hdelivered', _⟩ := hkeeps.ceiling hceil
  obtain ⟨hdelivered, _⟩ := hceil
  have honly : (v.armed i q).ppc = _ := v.braceOn_ppc
  exact hset.budget_eq (hkeeps.settled hs hset) (by rw [honly, hp]) (by rw [hbridge]) hcarries hdelivered hdelivered'

end

/-! ### What the sample finds of the other blocks -/

section
variable (p : PortId) {f : WireFrame} {s : State} {i : Nat} {e : RouteEntry} {role : TapRole}

/-- The entry is still valid behind the northbound path (R3 to R5). -/
theorem State.northbound_valid (h : Tapped s f i e role) :
    ((((s.hunted p).northbound i e (sampleOf f.body)).srt.table[i]?).any (·.valid)) = true := by
  obtain ⟨_, hentry, _⟩ := h
  have hi : (s.hunted p).srt.table[i]? = some e := ((Srt.entryFor_iff _ _ _ _).1 hentry).2
  obtain ⟨_, hvalid, _⟩ := hentry
  rw [State.northbound_srt _ i e _ hi, List.getElem?_set_self (List.getElem?_eq_some_iff.1 hi).1, RouteEntry.counted_eq]
  exact hvalid

/-- A request in progress is not touched by the northbound path (R152). -/
theorem State.northbound_busy (s : State) (i : Nat) (e : RouteEntry) (x : Sample) (h : s.rqh.inProgress.isSome = true) :
    (s.northbound i e x).rqh = s.rqh := by
  rw [State.northbound_eq, State.editEntry_rqh]
  split
  · unfold State.offer
    split
    · rw [State.placeSample, State.pump, State.takeRequest_busy]
      · rfl
      · exact h
    · rw [State.raise_rqh]
      rfl
  · rfl

end

theorem Slot.exists_iff {P : Slot → Prop} : (∃ x, P x) ↔ P .a ∨ P .b := by
  refine ⟨fun ⟨x, hx⟩ => ?_, fun h => h.elim (⟨_, ·⟩) (⟨_, ·⟩)⟩
  cases x with
  | a => exact .inl hx
  | b => exact .inr hx

theorem Ppc.dropContext_swap (p : Ppc) : p.dropContext.swapInProgress = true ↔ p.swapInProgress := by
  have hswapping : ∀ k : PackState, k.swapping = true ↔ k = .releasing ∨ k = .unlocked := fun k => by
    cases k <;> simp [PackState.swapping]
  unfold Ppc.swapInProgress
  rw [Slot.exists_iff]
  exact Bool.or_eq_true_iff.trans (or_congr (hswapping _) (hswapping _))

/-! ### The sample in MTM -/

/-- The history takes the sample of a phase step (R107). -/
def Motion.pushed (x : Motion) (mag : Nat) : Motion :=
  { x with mtm := { x.mtm with history := pushHistory x.mtm.history mag } }

section
variable {m : Mtm}

theorem Mtm.Ordered.accelSample_quiet (h : m.Ordered) (hp : m.phase = .idle ∨ m.phase = .hold) (a : Accel) (i : Nat)
    (c : DropContext) : m.accelSample a i c = ((m.stored a i).quietPhaseStep a c).pushed a.magnitude := by
  have hs : (m.stored a i).Ordered := h.congr rfl rfl h.history rfl h.hold
  rw [← hs.phaseStep_quiet hp a c]
  rfl

/-- Outside a record a phase step leaves the history and raises FALL_START at most (R112). -/
theorem Mtm.quietPhaseStep_keeps (hc : Closed m.ring) (a : Accel) (c : DropContext) :
    (m.quietPhaseStep a c).mtm.history = m.history ∧ ∀ e ∈ (m.quietPhaseStep a c).pulses, e = .fallStart := by
  by_cases hi : m.set.impactThresh ≤ a.magnitude
  · rw [Mtm.quietPhaseStep_shock a c hc hi]
    exact ⟨rfl, nofun⟩
  · have hi := not_le.1 hi
    by_cases hl : a.magnitude < m.set.ffThresh
    · by_cases hn : m.set.ffCount ≤ heldInc m.lowRun 255
      · rw [Mtm.quietPhaseStep_falls a c hi hl hn]
        exact ⟨rfl, fun e he => List.mem_singleton.1 he⟩
      · rw [Mtm.quietPhaseStep_counts a c hi hl (not_le.1 hn)]
        exact ⟨rfl, nofun⟩
    · rw [Mtm.quietPhaseStep_clears a c hi (not_lt.1 hl)]
      exact ⟨rfl, nofun⟩

end

/-- The bound of a count holds it at its place: never below the smaller of both (R112). -/
theorem min_le_heldAt (n top : Nat) : min (n + 1) top ≤ heldAt n top := by
  unfold heldAt
  split <;> omega

/-- Settles O24: the northbound path leaves MTM as it was, the phase step has one equation for each branch, and its delivery either
arms PPC, LMC and SRT (`State.armed`) or reaches RQH's copy alone (`State.mtmEnd_within`). -/
theorem accelSampleOpensARecord : Obligations.AccelSampleOpensARecord := by
  unfold Obligations.AccelSampleOpensARecord
  intro p f s i e htap hsound hphase hlen
  refine ⟨_, exec_accelSample p htap, ?_⟩
  have hreach := s.reached p i e (sampleOf f.body)
  have hoverride := State.northbound_override p htap
  have hvalid := State.northbound_valid p htap
  have hbusy := fun h => (s.hunted p).northbound_busy i e (sampleOf f.body) h
  have honly := hreach.onlyBraced i (sampleOf f.body).payload
  generalize (s.hunted p).northbound i e (sampleOf f.body) = u at hreach hoverride hvalid hbusy honly ⊢
  unfold State.accelTap at honly ⊢
  rw [hreach.mtm, hreach.ppc] at honly ⊢
  generalize Accel.ofPayload (sampleOf f.body).payload = a at honly ⊢
  have ho := hsound.ordered
  have hclosed : Closed s.mtm.ring := ho.closed ((Phase.recording_eq_false _).2 hphase)
  obtain ⟨hmag, hindex, _, _, _, hstays⟩ := s.mtm.accelSample_stores a i s.ppc.dropContext
  have hy := ho.accelSample_quiet hphase a i s.ppc.dropContext
  obtain ⟨hhistory, hpulses⟩ := Mtm.quietPhaseStep_keeps (m := s.mtm.stored a i) hclosed a s.ppc.dropContext
  have hpulses : ∀ e ∈ (s.mtm.accelSample a i s.ppc.dropContext).pulses, e = .fallStart := by rw [hy]; exact hpulses
  have hhistory : (s.mtm.accelSample a i s.ppc.dropContext).mtm.history = pushHistory s.mtm.history a.magnitude := by
    rw [hy]
    exact congrArg (pushHistory · a.magnitude) hhistory
  generalize s.mtm.accelSample a i s.ppc.dropContext = y at hmag hindex hstays hy hpulses hhistory honly ⊢
  have hmoved : Told s (u.moved y) := hreach.told.trans (.moved u y)
  have hppc : (u.moved y).ppc = s.ppc := (u.moved_ppc y).trans hreach.ppc
  have hlmc : (u.moved y).lmc = s.lmc := (u.moved_lmc y).trans hreach.lmc
  have hevents : s.ntu.onlyEvents [.sampleOverflow, .fallStart, .motionBlind] (u.moved y).ntu := by
    refine Ntu.onlyEvents_trans (Ntu.onlyEvents_mono hreach.events (by simp))
      (Ntu.onlyEvents_mono (u.moved_onlyEvents y) fun e he => ?_)
    rcases List.mem_append.1 he with he | he
    · simp [hpulses e he]
    · simp [List.mem_singleton.1 he]
  have hquiet : LightQuiet s (u.moved y) := .of_events hmoved hevents (by decide) (by decide)
  have hcontext := s.ppc.dropContext_swap
  have hstarts : Event.fallStart ∈ y.pulses → Occurred s (u.mtmEnd y) .fallStart := hreach.told.occurred_mtmEnd hlen
  have hbridge := (Ntu.onlyEvents_other hevents (e := .bridgeAlone) (by decide)).2
  have hpark : (u.mtmEnd y).park = true ↔ y.mtm.phase ≠ .idle := by
    unfold State.park
    rw [State.mtmEnd_mtm]
    exact bne_iff_ne
  rw [State.mtmEnd_mtm]
  refine ⟨hmag, hhistory, fun hi => ?shock, fun hi hl hn => ?falls, fun hi hl hn hle => ?counts, fun hi hl => ?clears, ?delivery⟩
  case shock =>
    rw [hy, Mtm.quietPhaseStep_shock (m := s.mtm.stored a i) a _ hclosed hi]
    exact ⟨rfl, rfl, rfl, rfl, _, rfl, rfl, rfl, rfl, rfl, rfl, rfl, rfl, rfl, rfl, hcontext, ⟨_, rfl, a.peakOf⟩, rfl, rfl⟩
  case falls =>
    have hx := Mtm.quietPhaseStep_falls (m := s.mtm.stored a i) a s.ppc.dropContext hi hl (hn.trans (min_le_heldAt _ _))
    have hstart := hstarts (by rw [hy, hx]; exact List.mem_singleton_self _)
    rw [hy, hx] at hstart ⊢
    exact ⟨rfl, rfl, rfl, rfl, rfl, hstart, _, rfl, rfl, rfl, rfl, rfl, rfl, rfl, rfl, rfl, rfl, hcontext, rfl, rfl, rfl⟩
  case counts =>
    have hcount : heldInc s.mtm.lowRun 255 = min (s.mtm.lowRun + 1) 255 := heldAt_eq_min hle
    rw [hy, Mtm.quietPhaseStep_counts (m := s.mtm.stored a i) a _ hi hl (hcount ▸ hn)]
    exact ⟨rfl, hcount, rfl, rfl⟩
  case clears =>
    rw [hy, Mtm.quietPhaseStep_clears (m := s.mtm.stored a i) a _ hi hl]
    exact ⟨rfl, rfl, rfl, rfl⟩
  case delivery =>
    by_cases hleaves : s.mtm.phase = .idle ∧ y.mtm.phase ≠ .idle
    · obtain ⟨hidle, hne⟩ := hleaves
      have hend := State.mtmEnd_armed (s := u) (hreach.mtm ▸ hidle) hne hindex hvalid
      generalize hq : ({ u.rqh with phaseCopy := y.mtm.phase } : Rqh) = q at hend
      have hswitch := (u.moved y).armed_switch i q
      rw [hppc] at hswitch
      have halone := ((u.moved y).armed_alone i q (hquiet.length.trans hlen)).since hmoved (.armed _ i q) hppc hlmc hbridge
      refine ⟨fun _ _ => ⟨?brace, ?freeze, ?copy, ?override, hpark.2 hne, fun hb => ?taken, ?switch⟩, honly, ?alone,
        fun hc => ?ceiling, fun hs => ?safe, fun h => absurd h (not_or.2 ⟨hne, not_not.2 hidle⟩)⟩
      case brace => rw [hend]; exact State.armed_brace _ _ _
      case freeze => rw [hend, State.armed_lmc]
      case copy => rw [hend, State.armed_rqh, ← hq]
      case override => rw [hend, State.armed_srt]
      case taken =>
        have htaken : u.rqh.takenIn = s.rqh.takenIn := congrArg Rqh.takenIn (hbusy hb)
        rw [hend, State.armed_rqh, ← hq]
        exact htaken
      case switch => rw [hend]; exact hswitch
      case alone => rw [hend]; exact halone
      case ceiling => rw [hend]; exact hquiet.delivered_armed hppc hlmc hc i q
      case safe => rw [hend]; exact State.armed_safe hppc hlmc i q hs
    · have hidle : y.mtm.phase = .idle ↔ u.mtm.phase = .idle := by
        rw [hreach.mtm]
        exact ⟨hstays, fun h => by_contra fun hne => hleaves ⟨h, hne⟩⟩
      have hend := u.mtmEnd_within y hidle
      have hp : (u.mtmEnd y).ppc = s.ppc := by rw [hend]; exact hppc
      have hl : (u.mtmEnd y).lmc = s.lmc := by rw [hend]; exact hlmc
      have hcut : (u.mtmEnd y).ntu.isLatched .ceilingCut = s.ntu.isLatched .ceilingCut := by
        rw [hend]
        exact hquiet.ceilingCut_eq
      refine ⟨fun h hne => absurd ⟨h, hne⟩ hleaves, honly, .of_same hp, fun hc => .of_same hc hp hl hcut, fun _ => ?_,
        fun _ => ⟨hp, hl, ?_⟩⟩
      · rw [hp]
        exact ⟨rfl, fun _ _ => rfl⟩
      · rw [hend, State.setRqh_srt, State.moved_srt, hoverride]

end Sys2Proof.Machine
end

section
/-! What DROP_READ and DROP_RELEASE find in the drop ring (R130, R132, R133), and what the transmitter and RQH take at the end of a
frame (R152, R166). -/

namespace Sys2Proof.Machine

/-! ### The record with a number (R132, R133) -/

section
variable {m : Mtm} {older newer : List DropRecord} {r : DropRecord} {seq : Nat}

theorem Mtm.held_eq_none (h : ∀ r ∈ m.ring, r.seq ≠ seq) : m.held seq = none :=
  List.find?_eq_none.2 fun r hr => by simpa using h r hr

/-- The oldest record with a number is the one held with it. -/
theorem Mtm.held_eq_some (hring : m.ring = older ++ r :: newer) (hr : r.seq = seq) (hold : ∀ q ∈ older, q.seq ≠ seq) :
    m.held seq = some r :=
  List.find?_eq_some_iff_append.2 ⟨by simpa using hr, older, newer, hring, fun q hq => by simpa using hold q hq⟩

/-- Freeing through a number keeps what stands behind the oldest record with it (R133). -/
theorem freeThrough_append (hr : r.seq = seq) (hold : ∀ q ∈ older, q.seq ≠ seq) :
    freeThrough (older ++ r :: newer) seq = newer := by
  induction older with
  | nil => exact if_pos hr
  | cons q older ih =>
    obtain ⟨hq, hold⟩ := List.forall_mem_cons.1 hold
    exact (if_neg hq).trans (ih hold)

end

/-! ### DROP_READ (R132) -/

/-- The bytes of Table 10-8 in the model's reply: the two ways to write the axis and sign of an absent peak agree. -/
theorem DropRecord.bytes_eq (r : DropRecord) : r.bytes = recordBytes r := by
  unfold DropRecord.bytes recordBytes b8
  cases r.peak with
  | none => simp
  | some q => simp [Nat.add_assoc]

/-- The record that DROP_READ asks for: the oldest one with selector 1, else the one with the number. -/
def Mtm.selected (m : Mtm) (sel seq : Nat) : Option DropRecord := if sel = 1 then m.ring.head? else m.held seq

section
variable {m : Mtm} {sel seq : Nat}

/-- DROP_READ finds nothing in an empty ring, or where the number is not held. -/
theorem Mtm.selected_eq_none (hsel : sel ≤ 1) (hempty : sel = 1 → m.ring = [])
    (hmissing : sel = 0 → ∀ r ∈ m.ring, r.seq ≠ seq) : m.selected sel seq = none := by
  by_cases h : sel = 1
  · exact (if_pos h).trans (by rw [hempty h]; rfl)
  · exact (if_neg h).trans (Mtm.held_eq_none (hmissing (by omega)))

theorem Mtm.selected_oldest {r : DropRecord} {rest : List DropRecord} (hsel : sel = 1) (hring : m.ring = r :: rest) :
    m.selected sel seq = some r :=
  (if_pos hsel).trans (by rw [hring]; rfl)

theorem Mtm.selected_named (hsel : sel = 0) : m.selected sel seq = m.held seq := if_neg (by omega)

end

section
variable {s : State} {sel lo hi : Byte}

theorem Mtm.selected_args (m : Mtm) (sel lo hi : Byte) :
    (if u8 [sel, lo, hi] 0 = 1 then m.ring.head? else m.held (u16 [sel, lo, hi] 1))
      = m.selected sel.toNat (lo.toNat + 256 * hi.toNat) := rfl

theorem dropReadOwner_none (h : s.mtm.selected sel.toNat (lo.toNat + 256 * hi.toNat) = none) :
    dropReadOwner [sel, lo, hi] s = ⟨s, .badIndex, BitVec.ofNat 8 s.mtm.ring.length :: le16 s.mtm.nextSeq⟩ := by
  unfold dropReadOwner
  rw [Mtm.selected_args, h]
  rfl

theorem dropReadOwner_some {r : DropRecord} (h : s.mtm.selected sel.toNat (lo.toNat + 256 * hi.toNat) = some r) :
    dropReadOwner [sel, lo, hi] s
      = ⟨s, .ok, recordBytes r ++ BitVec.ofNat 8 s.mtm.ring.length :: le16 s.mtm.nextSeq⟩ := by
  unfold dropReadOwner
  rw [Mtm.selected_args, h, ← DropRecord.bytes_eq]
  rfl

/-- DROP_READ only answers. -/
theorem dropReadOwner_only (s : State) (sel lo hi : Byte) : ∃ st p, dropReadOwner [sel, lo, hi] s = ⟨s, st, p⟩ := by
  cases h : s.mtm.selected sel.toNat (lo.toNat + 256 * hi.toNat) with
  | none => exact ⟨_, _, dropReadOwner_none h⟩
  | some r => exact ⟨_, _, dropReadOwner_some h⟩

end

/-- Settles O54: the record that the selector and the number find decides between BAD_INDEX and the report. -/
theorem dropReadReturnsARecord : Obligations.DropReadReturnsARecord := by
  unfold Obligations.DropReadReturnsARecord
  intro s tag sel lo hi hserve hsel
  have hreserved : RequestCode.dropRead.reservedSet [sel, lo, hi] = false :=
    decide_eq_false (Nat.not_le.2 (Nat.lt_succ_of_le hsel))
  have answer := fun st p => s.serve_only .dropRead dropReadOwner tag [sel, lo, hi] st p hserve rfl hreserved
  refine ⟨_, rfl, ?only, fun hempty hmissing => ?missing, fun r rest h1 hring => ?oldest,
    fun older r newer h0 hring hr hold => ?named⟩
  case only =>
    obtain ⟨st, p, ho⟩ := dropReadOwner_only s sel lo hi
    exact (answer st p ho).2
  case missing => exact (answer _ _ (dropReadOwner_none (Mtm.selected_eq_none hsel hempty hmissing))).1
  case oldest => exact (answer _ _ (dropReadOwner_some (Mtm.selected_oldest h1 hring))).1
  case named =>
    exact (answer _ _ (dropReadOwner_some ((Mtm.selected_named h0).trans (Mtm.held_eq_some hring hr hold)))).1

/-! ### DROP_RELEASE (R133) -/

section
variable {s : State} {lo hi : Byte}

theorem dropReleaseOwner_none (h : s.mtm.held (lo.toNat + 256 * hi.toNat) = none) :
    dropReleaseOwner [lo, hi] s = ⟨s, .badIndex, BitVec.ofNat 8 s.mtm.ring.length :: le16 s.mtm.nextSeq⟩ := by
  have hheld : s.mtm.held (u16 [lo, hi] 0) = none := h
  unfold dropReleaseOwner
  rw [hheld]
  rfl

theorem dropReleaseOwner_open {r : DropRecord} (h : s.mtm.held (lo.toNat + 256 * hi.toNat) = some r) (ho : r.isOpen = true) :
    dropReleaseOwner [lo, hi] s = ⟨s, .refused, [7#8]⟩ := by
  have hheld : s.mtm.held (u16 [lo, hi] 0) = some r := h
  unfold dropReleaseOwner
  rw [hheld]
  exact if_pos ho

/-- A closed record is freed with the older ones, and the reply counts the places that the ring lost. -/
theorem dropReleaseOwner_closed {older newer : List DropRecord} {r : DropRecord} (hring : s.mtm.ring = older ++ r :: newer)
    (hr : r.seq = lo.toNat + 256 * hi.toNat) (hold : ∀ q ∈ older, q.seq ≠ lo.toNat + 256 * hi.toNat) (hc : r.isOpen = false) :
    dropReleaseOwner [lo, hi] s = ⟨s.setMtm { s.mtm with ring := newer }, .ok,
      [BitVec.ofNat 8 (older.length + 1), BitVec.ofNat 8 newer.length] ++ le16 s.mtm.nextSeq⟩ := by
  have hheld : s.mtm.held (u16 [lo, hi] 0) = some r := Mtm.held_eq_some hring hr hold
  have hfree : freeThrough s.mtm.ring (u16 [lo, hi] 0) = newer := by rw [hring]; exact freeThrough_append hr hold
  have hfreed : s.mtm.ring.length - newer.length = older.length + 1 := by simp [hring]; omega
  unfold dropReleaseOwner
  simp only [hheld, hc, hfree, hfreed]
  rfl

end

/-- Settles O55: the record held with the number decides between BAD_INDEX, the refusal and the release. -/
theorem dropReleaseFreesTheOlder : Obligations.DropReleaseFreesTheOlder := by
  unfold Obligations.DropReleaseFreesTheOlder
  intro s tag lo hi hserve
  have answer := fun st p => s.serve_only .dropRelease dropReleaseOwner tag [lo, hi] st p hserve rfl rfl
  refine ⟨fun hmissing => ?missing, fun older r newer hring hr hold => ⟨fun ho => ?isOpen, fun hc => ?closed⟩⟩
  case missing => exact ⟨_, rfl, (answer _ _ (dropReleaseOwner_none (Mtm.held_eq_none hmissing))).symm⟩
  case isOpen => exact ⟨_, rfl, answer _ _ (dropReleaseOwner_open (Mtm.held_eq_some hring hr hold) ho)⟩
  case closed =>
    obtain ⟨hans, honly, hntu, hmtm⟩ := State.serve_mtm hserve rfl rfl (dropReleaseOwner_closed hring hr hold hc)
    exact ⟨_, rfl, honly, hntu, hmtm, hans⟩

/-! ### The end of a frame (R152, R166) -/

section
variable (l : Lki) (hidle : l.sending = none) (hnotice : l.notice = none)
include hidle hnotice

/-- With no NOTICE the transmitter takes the head of the reply stream (R166). -/
theorem Lki.transmit_reply {x : StreamItem} {rest : List StreamItem} (h : l.stream = x :: rest) :
    l.transmit = { l with sending := some x.frame, stream := rest } := by
  simp only [Lki.transmit, hidle, hnotice, h]

/-- With no NOTICE and no reply the transmitter takes the head of the sample queue (R166). -/
theorem Lki.transmit_oldestSample {x : Sample} {rest : List Sample} (hstream : l.stream = []) (h : l.samples = x :: rest) :
    l.transmit = { l with sending := some (.sample x), samples := rest } := by
  simp only [Lki.transmit, hidle, hnotice, hstream, h]

/-- With nothing to send the transmitter stays idle (R166). -/
theorem Lki.transmit_nothing (hstream : l.stream = []) (h : l.samples = []) : l.transmit = l := by
  simp only [Lki.transmit, hidle, hnotice, hstream, h]

end

/-- The end of a transmission frees the transmitter, which takes what waits, and then RQH does (R152, R166). -/
theorem exec_transmitComplete {s : State} (h : s.lki.sending.isSome = true) :
    exec .transmitComplete s = .next (s.setLki { s.lki with sending := none }).pump :=
  congrArg Host.Outcome.next (if_pos h)

/-- Settles O16: the transmitter's taking along the three places it looks at, then RQH's taking, with the conditions of R152 read
after the transmitter's. -/
theorem transmitterTakesInOrder : Obligations.TransmitterTakesInOrder := by
  unfold Obligations.TransmitterTakesInOrder
  intro s hsending
  refine ⟨_, exec_transmitComplete hsending, ?transmitter, ?rqh, by simp, by simp, by simp, by simp, by simp, by simp, by simp,
    by simp⟩
  case transmitter =>
    rw [State.pump_lki, State.setLki_lki]
    cases hnotice : s.lki.notice with
    | some n => exact Lki.transmit_notice { s.lki with sending := none } n rfl hnotice
    | none =>
      cases hstream : s.lki.stream with
      | cons x rest => exact Lki.transmit_reply { s.lki with sending := none } rfl hnotice hstream
      | nil =>
        cases hsamples : s.lki.samples with
        | cons x rest => exact Lki.transmit_oldestSample { s.lki with sending := none } rfl hnotice hstream hsamples
        | nil => exact Lki.transmit_nothing { s.lki with sending := none } rfl hnotice hstream hsamples
  case rqh =>
    rw [State.pump_lki, State.setLki_lki]
    unfold State.pump
    rw [State.setLki_lki]
    generalize Lki.transmit _ = l
    rcases State.takeRequest_cases ((s.setLki { s.lki with sending := none }).setLki l) with
      ⟨r, rest, hfree, hqueue, hroom, hrestart, htake⟩ | ⟨hstay, hwaits⟩
    · rw [State.setLki_rqh, State.setLki_rqh] at hfree hqueue
      rw [htake, hfree, hqueue]
      exact (if_pos ⟨hroom, hrestart⟩).symm
    · rw [hstay]
      cases hfree : s.rqh.inProgress with
      | some r => rfl
      | none =>
        cases hqueue : s.rqh.queue with
        | nil => rfl
        | cons r rest =>
          refine (if_neg fun ⟨hroom, hrestart⟩ => ?_).symm
          rcases hwaits hfree r rest hqueue with hfull | ⟨hcode, hstream⟩
          · exact hfull.not_gt hroom
          · exact hstream (hrestart hcode)

end Sys2Proof.Machine
end

section
/-! What a step keeps of the event table (R137 to R139, R141, R143): the part of it that rests on NTU alone, and the live flags
against the conditions of their owners. -/

namespace Sys2Proof.Machine

/-! ### The table by itself -/

/-- The level that an entry of code `k` may have: its own for a hard event, at most 7 for a soft one (R137, R143). -/
def LevelAllowed (k level : Nat) : Prop := (∀ l, hardLevel k = some l → level = l) ∧ (hardLevel k = none → level ≤ 7)

/-- What `State.eventsTrue` says of NTU alone: 32 entries, notified only where latched, of the levels that they may have. -/
structure Ntu.Sound (n : Ntu) : Prop where
  length : n.table.length = 32
  entry : ∀ (k : Nat) (e : EventEntry), n.table[k]? = some e →
    (e.notified = true → e.latched = true) ∧ LevelAllowed k e.level

/-- Every live flag shows its condition (R139). -/
def State.ShowsConditions (s : State) : Prop := ∀ e : Event, s.ntu.isLive e = s.liveOf e.code

theorem levelAllowed_iff (k level : Nat) : LevelAllowed k level ↔ match hardLevel k with
    | some l => level = l
    | none => level ≤ 7 := by
  unfold LevelAllowed
  cases hardLevel k <;> simp

theorem State.eventsTrue_iff (s : State) : s.eventsTrue ↔ s.ntu.Sound ∧ s.ShowsConditions := by
  constructor
  · rintro ⟨hlen, hentry⟩
    refine ⟨⟨hlen, fun k e he => ?_⟩, fun e => ?_⟩
    · obtain ⟨hn, _, hlev⟩ := hentry k e he
      exact ⟨hn, (levelAllowed_iff _ _).2 hlev⟩
    · have he := List.getElem?_eq_getElem (hlen ▸ e.code_lt : e.code < s.ntu.table.length)
      rw [Ntu.isLive, he]
      exact (hentry _ _ he).2.1
  · rintro ⟨⟨hlen, hentry⟩, hshows⟩
    refine ⟨hlen, fun k e he => ?_⟩
    obtain ⟨hn, hlev⟩ := hentry k e he
    obtain ⟨f, rfl⟩ := Event.exists_code (hlen ▸ (List.getElem?_eq_some_iff.1 he).1 : k < 32)
    have hlive := hshows f
    rw [Ntu.isLive, he] at hlive
    exact ⟨hn, hlive, (levelAllowed_iff _ _).1 hlev⟩

/-- Events set no level, and notify only what is latched (R138, R140). -/
theorem Ntu.Sound.of_events {es : List Event} {n n' : Ntu} (hs : n.Sound) (h : n.onlyEvents es n') : n'.Sound := by
  obtain ⟨_, _, hlen, hset, _, hmono⟩ := h
  refine ⟨hlen.trans hs.length, fun k e' he' => ?_⟩
  obtain ⟨e, he⟩ : ∃ e, n.table[k]? = some e :=
    ⟨_, List.getElem?_eq_getElem (hlen ▸ (List.getElem?_eq_some_iff.1 he').1 : k < n.table.length)⟩
  obtain ⟨hn, hlev⟩ := hs.entry k e he
  obtain ⟨hlatched, _, hnew⟩ := hmono k e e' he he'
  have hkeep := hset k
  rw [he, he'] at hkeep
  obtain ⟨_, hlevel⟩ := Prod.mk.inj (Option.some.inj hkeep)
  refine ⟨fun h => ?_, hlevel ▸ hlev⟩
  rcases hnew h with h | ⟨h, _⟩
  · exact hlatched (hn h)
  · exact h

/-- A judgement marks entries as notified and changes nothing else of the table (R140, R141). -/
theorem State.judge_onlyEvents (s : State) : s.ntu.onlyEvents [] s.judge.ntu := by
  refine ⟨by simp, by simp, by simp, fun k => ?_, fun k _ => ?_, fun k e e' he he' => ?_⟩
  · rw [State.judge_entry, Option.map_map]; rfl
  · rw [State.judge_entry, Option.map_map]; rfl
  · rw [State.judge_entry, he] at he'
    obtain rfl := Option.some.inj he'
    refine ⟨id, fun h => by simp [h], fun h => ?_⟩
    rcases Bool.or_eq_true_iff.1 h with h | h
    · exact .inl h
    · obtain ⟨hl, _, hm⟩ := (Ntu.eligible_iff _ _ _).1 h
      exact .inr ⟨hl, (Ntu.mayNotify_congr s.judge_globalEnable s.judge_holdOff rfl).2 hm⟩

/-! ### Links of a command's chain -/

/-- The events with a condition (Table 8-2). -/
def ownedConditions : List Event := powerConditions ++ lightConditions ++ [.motionBlind]

theorem State.conditions_events (s : State) : s.conditions.map Prod.fst = ownedConditions := rfl

/-- A pulse event is never live (R139). -/
theorem State.liveOf_pulse (s : State) {e : Event} (h : e ∉ ownedConditions) : s.liveOf e.code = false := by
  unfold State.liveOf
  rw [List.any_eq_false]
  intro c hc hand
  obtain ⟨hcode, _⟩ := Bool.and_eq_true_iff.1 hand
  obtain rfl := Event.code_inj.1 (beq_iff_eq.1 hcode)
  exact h (s.conditions_events ▸ List.mem_map_of_mem hc)

theorem State.liveOf_congr {s t : State} (h : t.conditions = s.conditions) (k : Nat) : t.liveOf k = s.liveOf k := by
  unfold State.liveOf; rw [h]

/-- From `s` to `t` the event table stays true. -/
def KeepsEvents (s t : State) : Prop := s.eventsTrue → t.eventsTrue

theorem KeepsEvents.refl (s : State) : KeepsEvents s s := id

theorem KeepsEvents.trans {s u t : State} (h1 : KeepsEvents s u) (h2 : KeepsEvents u t) : KeepsEvents s t := h2 ∘ h1

/-- A change that leaves the table and the conditions alone. -/
theorem KeepsEvents.of_same {s t : State} (ht : t.ntu.table = s.ntu.table) (hc : t.conditions = s.conditions) :
    KeepsEvents s t := by
  unfold KeepsEvents State.eventsTrue State.liveOf
  rw [ht, hc]
  exact id

/-- A change of NTU that moves no live flag. -/
theorem KeepsEvents.of_still {s t : State} (hs : s.ntu.Sound → t.ntu.Sound) (hl : ∀ e, t.ntu.isLive e = s.ntu.isLive e)
    (hc : t.conditions = s.conditions) : KeepsEvents s t := fun h => by
  obtain ⟨hsound, hshows⟩ := s.eventsTrue_iff.1 h
  exact t.eventsTrue_iff.2 ⟨hs hsound, fun e => by rw [hl, hshows, State.liveOf_congr hc]⟩

theorem KeepsEvents.judge (s : State) : KeepsEvents s s.judge :=
  .of_still (fun h => h.of_events s.judge_onlyEvents)
    (fun _ => (Ntu.onlyEvents_other s.judge_onlyEvents List.not_mem_nil).2) (by simp [State.conditions])

/-- A raising that delivers every condition which differs from that of `s` (R139). -/
theorem KeepsEvents.raise_at {s u : State} (hn : u.ntu = s.ntu) (ps : List Event) {cs : List (Event × Bool)}
    (hcs : ∀ c ∈ cs, c ∈ u.conditions) (hrest : ∀ c ∈ u.conditions, c ∈ cs ∨ c ∈ s.conditions) :
    KeepsEvents s (u.raise ps cs) := fun h => by
  obtain ⟨hsound, hshows⟩ := s.eventsTrue_iff.1 h
  refine (State.eventsTrue_iff _).2 ⟨(hn ▸ hsound : u.ntu.Sound).of_events (u.raise_onlyEvents ps cs), fun e => ?_⟩
  rw [State.liveOf_congr (s := u) (by simp [State.conditions])]
  by_cases hd : ∃ v, (e, v) ∈ cs
  · obtain ⟨v, hv⟩ := hd
    have hu := fun w (hw : (e, w) ∈ cs) => u.liveOf_condition _ (hcs _ hw)
    have hdel : Delivers cs e v := ⟨hv, fun c hc he => by
      subst he
      exact (hu c.2 hc).symm.trans (hu v hv)⟩
    exact (u.raise_condition ps cs (hn ▸ hsound.length) hdel.lookup).trans (hu v hv).symm
  · have hout : e ∉ cs.map Prod.fst := fun hm => by
      obtain ⟨c, hc, rfl⟩ := List.mem_map.1 hm
      exact hd ⟨c.2, hc⟩
    rw [State.raise_isLive_other u ps cs hout, hn, hshows]
    by_cases ho : e ∈ ownedConditions
    · obtain ⟨c, hc, rfl⟩ := List.mem_map.1 (u.conditions_events ▸ ho)
      have hs := (hrest c hc).resolve_left fun hc => hd ⟨c.2, hc⟩
      rw [s.liveOf_condition c hs, u.liveOf_condition c hc]
    · rw [s.liveOf_pulse ho, u.liveOf_pulse ho]

/-- Pulse events alone. -/
theorem KeepsEvents.pulse {s u : State} (hn : u.ntu = s.ntu) (hc : u.conditions = s.conditions) (ps : List Event) :
    KeepsEvents s (u.raise ps []) :=
  .raise_at hn ps (fun _ h => absurd h List.not_mem_nil) fun _ h => .inr (hc ▸ h)

/-! ### LMC -/

theorem KeepsEvents.lmcEnd (s : State) (m : Lmc) (ps : List Event) : KeepsEvents s (s.lmcEnd m ps) := by
  refine .raise_at (s := s) (u := s.setLmc m) rfl ps (fun c h => ?_) fun c h => ?_
  · simp [State.conditions, h]
  · simp only [State.conditions, List.mem_append] at h ⊢
    exact h.elim (Or.elim · (.inr ∘ .inl ∘ .inl) .inl) (.inr ∘ .inr)

theorem KeepsEvents.lmcCut (s : State) (m : Lmc) (c : Nat) : KeepsEvents s (s.lmcCut m c) := by
  unfold State.lmcCut
  split <;> exact .lmcEnd s _ _

theorem KeepsEvents.deliverCeiling (s : State) (c : Nat) : KeepsEvents s (s.deliverCeiling c) := .lmcCut s _ c

theorem KeepsEvents.deliverRegime (s : State) (r : Regime) : KeepsEvents s (s.deliverRegime r) := by
  have hcopy : KeepsEvents s (s.setPpc { s.ppc with regime := r }) := .of_same rfl rfl
  unfold State.deliverRegime
  dsimp only
  split
  · exact hcopy.trans (.lmcCut _ _ _)
  · exact hcopy.trans (.lmcEnd _ _ _)

theorem KeepsEvents.lightSample (s : State) (r : LightRole) (b : List Byte) : KeepsEvents s (s.lightSample r b) := by
  unfold State.lightSample
  split <;> exact .lmcEnd s _ _

/-! ### PPC -/

theorem KeepsEvents.ppcQuiet (s : State) (p : Ppc) (ps : List Event) : KeepsEvents s (s.ppcQuiet p ps) := by
  refine .raise_at (s := s) (u := s.setPpc p) rfl ps (fun c h => ?_) fun c h => ?_
  · simp [State.conditions, h]
  · simp only [State.conditions, List.mem_append] at h ⊢
    exact h.elim (Or.elim · .inl (.inr ∘ .inl ∘ .inr)) (.inr ∘ .inr)

theorem KeepsEvents.ppcSettle (s : State) (p : Ppc) (ps : List Event) : KeepsEvents s (s.ppcSettle p ps) := by
  rcases s.ppcSettle_cases p ps with h | h <;> rw [h]
  · exact .ppcQuiet s _ _
  · exact (KeepsEvents.ppcQuiet s _ _).trans (.deliverCeiling _ _)

theorem KeepsEvents.ppcEnd (s : State) (p : Ppc) (ps : List Event) : KeepsEvents s (s.ppcEnd p ps) := by
  unfold State.ppcEnd
  split
  · exact .ppcQuiet s p ps
  · exact .ppcSettle s p ps

theorem KeepsEvents.gaugeTap (s : State) (x : Slot) (b : List Byte) : KeepsEvents s (s.gaugeTap x b) := by
  unfold State.gaugeTap
  dsimp only
  split
  · exact .ppcSettle s _ _
  · exact .ppcEnd s _ _

theorem KeepsEvents.bridgeTap (s : State) (b : List Byte) : KeepsEvents s (s.bridgeTap b) := by
  unfold State.bridgeTap
  dsimp only
  split
  · exact .refl s
  · split
    · exact .ppcSettle s _ _
    · exact .ppcQuiet s _ _

theorem KeepsEvents.deliverPBlMax (s : State) (v : Nat) : KeepsEvents s (s.deliverPBlMax v) := by
  unfold State.deliverPBlMax
  split
  · exact .refl s
  · exact .ppcSettle s _ _

/-- A change of one pack record that leaves stale alone (Table 8-2). -/
theorem KeepsEvents.editPack (s : State) (x : Slot) {g : Pack → Pack} (hg : ∀ k, (g k).stale = k.stale) :
    KeepsEvents s (s.editPack x g) := by
  refine .of_same rfl ?_
  cases x <;> simp [State.conditions, Ppc.conditions, State.editPack, Ppc.setPack, Ppc.pack, hg]

/-! ### MTM -/

theorem KeepsEvents.deliverPhase (s : State) (old new : Phase) : KeepsEvents s (s.deliverPhase old new) := by
  have hon : KeepsEvents s s.braceOn.freezeOn.overrideOn :=
    KeepsEvents.trans (u := s.braceOn) (.ppcEnd s _ _) (.of_same (by simp) (by simp [State.conditions, Lmc.conditions]))
  have hoff : KeepsEvents s s.braceOff.freezeOff.overrideOff :=
    KeepsEvents.trans (u := s.braceOff) (.ppcEnd s _ _) ((KeepsEvents.lmcEnd _ _ _).trans (.of_same rfl rfl))
  unfold State.deliverPhase
  dsimp only
  split
  · exact .refl s
  · split
    · exact hon.trans (.of_same rfl rfl)
    · split
      · exact hoff.trans (.of_same rfl rfl)
      · exact .of_same rfl rfl

theorem KeepsEvents.mtmEnd (s : State) (r : Motion) : KeepsEvents s (s.mtmEnd r) := by
  refine .trans (u := s.moved r)
    (.raise_at (s := s) (u := s.setMtm r.mtm) rfl _ (fun c h => ?_) fun c h => ?_) (.deliverPhase _ _ _)
  · simp only [State.conditions, List.mem_append]
    exact .inr h
  · simp only [State.conditions, List.mem_append] at h ⊢
    exact h.elim (.inr ∘ .inl) .inl

/-! ### Samples -/

theorem KeepsEvents.placeSample (s : State) (x : Sample) : KeepsEvents s (s.placeSample x) :=
  .of_same (by simp) (by simp [State.conditions])

theorem KeepsEvents.offer (s : State) (i : Nat) (x : Sample) : KeepsEvents s (s.offer i x) := by
  have hedit : ∀ g, KeepsEvents s (s.editEntry i g) := fun _ => .of_same rfl rfl
  unfold State.offer
  split
  · exact (hedit _).trans (.placeSample _ x)
  · exact (hedit _).trans (.pulse rfl rfl _)

theorem KeepsEvents.northbound (s : State) (i : Nat) (e : RouteEntry) (x : Sample) : KeepsEvents s (s.northbound i e x) := by
  unfold State.northbound
  split
  · exact .offer s i x
  · exact .of_same rfl rfl
  · split
    · exact (KeepsEvents.offer s i x).trans (.of_same rfl rfl)
    · exact .of_same rfl rfl

theorem KeepsEvents.tapDeliver (s : State) (r : TapRole) (i : Nat) (x : Sample) : KeepsEvents s (s.tapDeliver r i x) := by
  unfold State.tapDeliver
  split
  · exact .refl s
  · split
    · exact .pulse rfl rfl _
    · cases r with
      | noTap => exact .refl s
      | accel => exact .mtmEnd s _
      | lightFront | lightTop => exact .lightSample s _ _
      | gaugeA | gaugeB => exact .gaugeTap s _ _
      | bridge => exact .bridgeTap s _

theorem KeepsEvents.unmatchedSample (s : State) (x : Sample) : KeepsEvents s (s.unmatchedSample x) := by
  have hcount : ∀ r, KeepsEvents s (s.setSrt r) := fun _ => .of_same rfl rfl
  unfold State.unmatchedSample
  dsimp only
  split
  · exact hcount _
  · split
    · exact .placeSample s x
    · exact (hcount _).trans (.pulse rfl rfl _)

theorem KeepsEvents.routeSample (s : State) (x : Sample) : KeepsEvents s (s.routeSample x) := by
  unfold State.routeSample
  split
  · exact .unmatchedSample s x
  · split
    · exact .unmatchedSample s x
    · exact (KeepsEvents.northbound s _ _ x).trans (.tapDeliver _ _ _ _)

end Sys2Proof.Machine
end

section
/-! What a step keeps of the event table, request by request and at the two resets (R143 to R149, R159): `eventTableStaysTrue`. -/

namespace Sys2Proof.Machine

/-! ### The link -/

theorem KeepsEvents.answer (s : State) (g : Byte) (st : Status) (p : List Byte) : KeepsEvents s (s.answer g st p) :=
  .of_same (by simp) (by simp [State.conditions])

theorem KeepsEvents.setLki (s : State) (l : Lki) : KeepsEvents s (s.setLki l) := .of_same rfl rfl

theorem KeepsEvents.linkError (s : State) : KeepsEvents s s.linkError := (KeepsEvents.setLki s _).trans (.pulse rfl rfl _)

theorem KeepsEvents.admitRequest (s : State) (r : Request) : KeepsEvents s (s.admitRequest r) := by
  unfold State.admitRequest
  split
  · exact .of_same (by simp) (by simp [State.conditions])
  · split
    · exact .of_same (by simp) (by simp [State.conditions])
    · exact .linkError s

theorem KeepsEvents.attend (s : State) : KeepsEvents s s.attend := by
  unfold State.attend
  split
  · exact (KeepsEvents.setLki s _).trans (.deliverRegime _ _)
  · exact .refl s

theorem KeepsEvents.receiveUplink (s : State) (f : WireFrame) : KeepsEvents s (s.receiveUplink f) := by
  unfold State.receiveUplink
  dsimp only
  split
  · unfold State.validRequest
    exact ((KeepsEvents.setLki s _).trans (.setLki _ _)).trans ((KeepsEvents.attend _).trans (.admitRequest _ _))
  · exact (KeepsEvents.setLki s _).trans (.linkError _)

/-! ### NTU -/

theorem KeepsEvents.endHoldOff (s : State) : KeepsEvents s s.endHoldOff :=
  KeepsEvents.trans (u := s.setNtu { s.ntu with holdOff := none }) (.of_same rfl rfl) (.judge _)

theorem KeepsEvents.holdNotices (s : State) (d : Nat) : KeepsEvents s (s.holdNotices d) := by
  unfold State.holdNotices
  split
  · split
    · exact .refl s
    · exact .of_same rfl rfl
  · split
    · exact .endHoldOff s
    · split
      · exact .of_same rfl rfl
      · exact .refl s

/-! ### The owners -/

/-- The owner's event keeps the event table true. -/
def OwnerKeepsEvents (owner : List Byte → State → Answer) : Prop := ∀ a s, KeepsEvents s (owner a s).state

theorem OwnerKeepsEvents.serve {owner : List Byte → State → Answer} (h : OwnerKeepsEvents owner) (s : State)
    (c : RequestCode) : KeepsEvents s (s.serve c owner) := by
  rcases s.serve_cases c owner with ht | ⟨r, _, _, ht | ht | ht⟩ <;> rw [ht]
  · exact .refl s
  · exact .answer s _ _ _
  · exact .answer s _ _ _
  · exact (h _ s).trans (.answer _ _ _ _)

theorem KeepsEvents.collide (s : State) (hit : Bool) : KeepsEvents s (s.collide hit) := by
  cases hit
  · exact .refl s
  · rw [State.collide_true]
    exact .pulse (s := s) (u := s.setSrt { s.srt with overrideEntry := none }) rfl rfl _

theorem routeWriteOwner_keepsEvents : OwnerKeepsEvents routeWriteOwner := fun a s => by
  have hset : ∀ r, KeepsEvents s (s.setSrt r) := fun _ => .of_same rfl rfl
  unfold routeWriteOwner
  dsimp only
  split
  · exact .refl s
  · split
    · exact .refl s
    · exact (hset _).trans (.collide _ _)

theorem routeFlushOwner_keepsEvents : OwnerKeepsEvents routeFlushOwner := fun a s => by
  have hset : ∀ r, KeepsEvents s (s.setSrt r) := fun _ => .of_same rfl rfl
  rw [routeFlushOwner_eq]
  exact (hset _).trans (.collide _ _)

theorem countSnapshotOwner_keepsEvents : OwnerKeepsEvents countSnapshotOwner := fun a s => by
  unfold countSnapshotOwner
  dsimp only [Answer.ok]
  split <;> exact .of_same rfl rfl

theorem routeReadOwner_keepsEvents : OwnerKeepsEvents routeReadOwner := fun a s => by
  unfold routeReadOwner
  dsimp only
  split <;> exact .refl s

theorem countReadOwner_keepsEvents : OwnerKeepsEvents countReadOwner := fun a s => by
  unfold countReadOwner
  dsimp only
  split
  · exact .refl s
  · split <;> exact .refl s

theorem passOwner_keepsEvents : OwnerKeepsEvents passOwner := fun a s => by
  unfold passOwner
  dsimp only
  split
  · exact .refl s
  · split
    · exact .refl s
    · split
      · exact .refl s
      · unfold State.offerPort
        split
        · exact .refl s
        · exact .of_same rfl rfl

theorem packProfileOwner_keepsEvents : OwnerKeepsEvents packProfileOwner := fun a s => by
  unfold packProfileOwner
  dsimp only
  split
  · exact .ppcSettle s _ _
  · exact .refl s

theorem packReleaseOwner_keepsEvents : OwnerKeepsEvents packReleaseOwner := fun a s => by
  unfold packReleaseOwner
  split
  · exact .refl s
  · dsimp only
    split
    · exact .refl s
    · exact .ppcEnd s _ _
    · exact .ppcEnd s _ _

theorem powerSetOwner_keepsEvents : OwnerKeepsEvents powerSetOwner := fun a s => by
  unfold powerSetOwner
  dsimp only
  split
  · exact .refl s
  · exact .ppcSettle s _ _

theorem bridgeSetOwner_keepsEvents : OwnerKeepsEvents bridgeSetOwner := fun a s => by
  unfold bridgeSetOwner
  dsimp only
  split
  · exact .refl s
  · exact .ppcSettle s _ _

theorem lightSetOwner_keepsEvents : OwnerKeepsEvents lightSetOwner := fun a s => by
  have hset : ∀ f t p, KeepsEvents s (s.setLmc (s.lmc.withSettings f t p)) := fun _ _ _ => .of_same rfl rfl
  unfold lightSetOwner
  dsimp only
  split
  · exact (hset _ _ _).trans (.deliverPBlMax _ _)
  · exact .refl s

theorem curveHeaderOwner_keepsEvents : OwnerKeepsEvents curveHeaderOwner := fun a s => by
  unfold curveHeaderOwner
  dsimp only
  split
  · exact .refl s
  · exact .lmcEnd s _ _

theorem curvePointOwner_keepsEvents : OwnerKeepsEvents curvePointOwner := fun a s => by
  unfold curvePointOwner
  dsimp only
  split
  · exact .refl s
  · exact .lmcEnd s _ _

theorem blBiasOwner_keepsEvents : OwnerKeepsEvents blBiasOwner := fun _ s => .lmcEnd s _ _

theorem blForceOwner_keepsEvents : OwnerKeepsEvents blForceOwner := fun _ s => .lmcEnd s _ _

theorem blReleaseOwner_keepsEvents : OwnerKeepsEvents blReleaseOwner := fun a s => by
  unfold blReleaseOwner
  split
  · exact .lmcEnd s _ _
  · exact .refl s

theorem motionSetOwner_keepsEvents : OwnerKeepsEvents motionSetOwner := fun a s => by
  unfold motionSetOwner
  dsimp only
  split
  · exact .of_same rfl rfl
  · exact .refl s

theorem dropReadOwner_keepsEvents : OwnerKeepsEvents dropReadOwner := fun a s => by
  unfold dropReadOwner
  split <;> exact .refl s

theorem dropReleaseOwner_keepsEvents : OwnerKeepsEvents dropReleaseOwner := fun a s => by
  unfold dropReleaseOwner
  split
  · exact .refl s
  · split
    · exact .refl s
    · exact .of_same rfl rfl

theorem noticeEnableOwner_keepsEvents : OwnerKeepsEvents noticeEnableOwner := fun a s => by
  have hset : ∀ b, KeepsEvents s (s.setNtu { s.ntu with globalEnable := b }) := fun _ => .of_same rfl rfl
  unfold noticeEnableOwner
  dsimp only
  split
  · exact .refl s
  · dsimp only [Answer.ok]
    split
    · exact (hset _).trans (.judge _)
    · exact hset _

/-! ### Changes of the event table by a request -/

theorem Ntu.editEntry_entry (n : Ntu) (i : Nat) (g : EventEntry → EventEntry) (k : Nat) :
    (n.editEntry i g).table[k]? = n.table[k]?.map fun e => if i = k then g e else e := by
  rw [Ntu.editEntry, List.getElem?_modify]
  rfl

theorem Ntu.clear_entry (n : Ntu) (mask k : Nat) : (n.clear mask).table[k]? =
    n.table[k]?.map fun e => if mask.testBit k then { e with latched := false, notified := false } else e := by
  rw [Ntu.clear, List.getElem?_mapIdx]

/-- A change that rewrites each entry, keeping its live flag and what `Ntu.Sound` says of it. -/
theorem KeepsEvents.rewrite {s t : State} (g : Nat → EventEntry → EventEntry)
    (ht : ∀ k, t.ntu.table[k]? = s.ntu.table[k]?.map (g k)) (hlive : ∀ k e, (g k e).live = e.live)
    (hflags : ∀ k e, (e.notified = true → e.latched = true) → (g k e).notified = true → (g k e).latched = true)
    (hlevel : ∀ k e, LevelAllowed k e.level → LevelAllowed k (g k e).level)
    (hlen : t.ntu.table.length = s.ntu.table.length) (hc : t.conditions = s.conditions) : KeepsEvents s t := by
  refine .of_still (fun h => ⟨hlen.trans h.length, fun k e' he' => ?_⟩) (fun e => ?_) hc
  · rw [ht] at he'
    obtain ⟨e, he, rfl⟩ := Option.map_eq_some_iff.1 he'
    obtain ⟨hn, hlev⟩ := h.entry k e he
    exact ⟨hflags k e hn, hlevel k e hlev⟩
  · rw [Ntu.isLive, Ntu.isLive, ht]
    cases s.ntu.table[e.code]? <;> simp [hlive]

/-- Enable and level of one entry are stored, the level one that the code may have (R143). -/
theorem KeepsEvents.configured {s : State} {k level : Nat} (h : LevelAllowed k level) (enable : Bool) :
    KeepsEvents s (s.setNtu (s.ntu.editEntry k fun e => { e with enable := enable, level := level })) := by
  refine .rewrite _ (Ntu.editEntry_entry s.ntu _ _) (fun i e => ?_) (fun i e hn => ?_) (fun i e hl => ?_)
    (by simp [Ntu.editEntry]) rfl
  · split <;> rfl
  · split <;> exact hn
  · split
    · next hi => exact hi ▸ h
    · exact hl

theorem eventConfigOwner_keepsEvents : OwnerKeepsEvents eventConfigOwner := fun a s => by
  unfold eventConfigOwner
  dsimp only
  split
  · exact .refl s
  · split
    · exact .refl s
    · split
      · exact .refl s
      · next hhard =>
        split
        · exact .refl s
        · next hsoft =>
          have hallowed : LevelAllowed (u8 a 0) (u8 a 2) := by
            cases h : hardLevel (u8 a 0) <;> simp_all [LevelAllowed]
          exact (KeepsEvents.configured hallowed _).trans (.judge _)

theorem eventReadClearOwner_keepsEvents :
    OwnerKeepsEvents fun a s => Answer.ok (s.setNtu (s.ntu.clear (u32 a 0))) s.ntu.readBytes := fun a s => by
  refine .rewrite _ (Ntu.clear_entry s.ntu _) (fun k e => ?_) (fun k e hn => ?_) (fun k e hl => ?_)
    (by simp [Ntu.clear]) rfl
  · split <;> rfl
  · split
    · exact id
    · exact hn
  · split <;> exact hl

/-! ### The two resets -/

theorem Ntu.fresh_sound (code : Nat) (live : List Nat) : (Ntu.fresh code live).Sound := by
  refine ⟨Ntu.fresh_length _ _, fun k e he => ?_⟩
  rw [Ntu.fresh_entry he]
  refine ⟨fun hn => absurd hn Bool.false_ne_true, ?_⟩
  unfold EventEntry.initial LevelAllowed
  cases hardLevel k <;> simp

/-- A fresh table with the live codes of the state's own conditions (R148, R149). -/
theorem State.eventsTrue_of_fresh {s : State} {code : Nat} (h : s.ntu = Ntu.fresh code (liveCodes s.ppc s.lmc s.mtm)) :
    s.eventsTrue := by
  refine s.eventsTrue_iff.2 ⟨h ▸ Ntu.fresh_sound _ _, fun e => ?_⟩
  rw [h, Ntu.fresh_isLive, liveCodes_contains]

theorem State.powerOn_eventsTrue (pins : Pins) (pending : List Instr) : (State.powerOn pins pending).eventsTrue := by
  rw [State.powerOn_def]
  exact KeepsEvents.ppcSettle _ _ _ (State.eventsTrue_of_fresh (Ntu.initial_eq _))

theorem State.restarted_eventsTrue (s : State) : s.restarted.eventsTrue := by
  have hfresh : (s.cleared.setPpc s.ppc.restarted).eventsTrue := State.eventsTrue_of_fresh s.cleared_fresh
  have hppc : s.ppc.restarted.conditions = s.ppc.conditions := by rw [s.ppc.restarted_only]; rfl
  have hcleared : KeepsEvents (s.cleared.setPpc s.ppc.restarted) s.cleared :=
    .of_same rfl (by simp only [State.conditions, State.setPpc_ppc, hppc]; rfl)
  rw [s.restarted_eq]
  exact KeepsEvents.ppcSettle _ _ _ (hcleared hfresh)

theorem restartOwner_keepsEvents : OwnerKeepsEvents restartOwner := fun a s => by
  unfold restartOwner
  split
  · exact fun _ => s.restarted_eventsTrue
  · exact .refl s

/-! ### Field ports -/

theorem KeepsEvents.finishRestart (s : State) : KeepsEvents s s.finishRestart := by
  unfold State.finishRestart
  split
  · exact restartOwner_keepsEvents.serve s _
  · exact .refl s

theorem KeepsEvents.receivePort (s : State) (p : PortId) (f : WireFrame) : KeepsEvents s (s.receivePort p f) := by
  unfold State.receivePort
  split
  · have hedit : KeepsEvents s (s.finishRestart.editPort p fun x => { x with rx := .hunting }) :=
      (KeepsEvents.finishRestart s).trans (.of_same rfl rfl)
    exact hedit.trans (.routeSample _ _)
  · exact .of_same rfl rfl

/-! ### The commands -/

/-- One millisecond moves timers alone. -/
theorem KeepsEvents.tick (s : State) : KeepsEvents s s.tick := .of_same rfl rfl

/-- Every command keeps the event table true. -/
theorem exec_keepsEvents {c : Instr} {s t : State} (hx : exec c s = .next t) : KeepsEvents s t := by
  cases c with
  | powerOnReset pins => exact Host.Outcome.next.inj hx ▸ fun _ => State.powerOn_eventsTrue pins _
  | requestFrameReceived f | uplinkFrameDiscarded f => exact Host.Outcome.next.inj hx ▸ .receiveUplink s f
  | sampleFrameReceived p f | badSampleFrame p f => exact Host.Outcome.next.inj hx ▸ .receivePort s p f
  | uplinkFrameStart | portFrameStart _ | passSendComplete _ | stepExpiry =>
    exact Host.Outcome.next.inj hx ▸ .of_same rfl rfl
  | uplinkByteGap =>
    obtain rfl := Host.Outcome.next.inj hx
    split
    · exact (KeepsEvents.setLki s _).trans (.linkError _)
    · exact .refl s
  | portByteGap p =>
    obtain rfl := Host.Outcome.next.inj hx
    split
    · exact .of_same rfl rfl
    · exact .refl s
  | transmitComplete =>
    obtain rfl := Host.Outcome.next.inj hx
    split
    · exact .of_same (by simp) (by simp [State.conditions])
    · exact .refl s
  | holdOffExpiry =>
    obtain rfl := Host.Outcome.next.inj hx
    split
    · exact .endHoldOff s
    · exact .refl s
  | lightStaleExpiry r =>
    obtain rfl := Host.Outcome.next.inj hx
    split
    · exact .lmcEnd s _ _
    · exact .refl s
  | silenceTimeoutExpiry =>
    obtain rfl := Host.Outcome.next.inj hx
    split
    · exact (KeepsEvents.setLki s _).trans (.deliverRegime _ _)
    · exact .refl s
  | rawInputChange pin _ =>
    obtain rfl := Host.Outcome.next.inj hx
    cases pin <;> exact .editPack s _ fun _ => rfl
  | leverRelease _ =>
    obtain rfl := Host.Outcome.next.inj hx
    split
    · exact .editPack s _ fun _ => rfl
    · exact .refl s
  | seating _ | leverPress _ =>
    obtain rfl := Host.Outcome.next.inj hx
    split
    · exact .refl s
    · exact .ppcEnd s _ _
  | presenceLoss x =>
    obtain rfl := Host.Outcome.next.inj hx
    split
    · exact .refl s
    · have hreport : ∀ u : State, KeepsEvents u (u.reportDislodged x) := fun _ => .of_same rfl rfl
      dsimp only
      split
      · exact (KeepsEvents.ppcEnd s _ _).trans (hreport _)
      · exact .ppcEnd s _ _
  | dcinOkChange level | brPresChange level =>
    obtain rfl := Host.Outcome.next.inj hx
    split
    · exact .refl s
    · exact .ppcSettle s _ _
  | qualTimeoutExpiry x | releaseConfirmExpiry x | unlockHoldExpiry x | transferSettleExpiry =>
    obtain rfl := Host.Outcome.next.inj hx
    split
    · exact .ppcEnd s _ _
    · exact .refl s
  | gaugeStaleExpiry x =>
    obtain rfl := Host.Outcome.next.inj hx
    split
    · exact .refl s
    · split
      · exact .ppcSettle s _ _
      · exact .ppcQuiet s _ _
  | swapWindowExpiry =>
    obtain rfl := Host.Outcome.next.inj hx
    split
    · exact .ppcSettle s _ _
    · exact .refl s
  | accelStaleExpiry | protectHoldExpiry =>
    obtain rfl := Host.Outcome.next.inj hx
    split
    · exact .mtmEnd s _
    · exact .refl s
  | identify | linkStatus | powerStatus | curveRead | blStatus | motionStatus | linkSet =>
    have hstill : ∀ {owner}, (∀ a s, (owner a s).state.ntu = s.ntu ∧ (owner a s).state.conditions = s.conditions) →
        OwnerKeepsEvents owner := fun h a s => .of_same (by rw [(h a s).1]) (h a s).2
    exact Host.Outcome.next.inj hx ▸ (hstill fun _ _ => ⟨rfl, rfl⟩).serve s _
  | packStatus =>
    exact Host.Outcome.next.inj hx ▸ OwnerKeepsEvents.serve (fun _ s => by split <;> exact .refl s) s _
  | packProfileWrite => exact Host.Outcome.next.inj hx ▸ packProfileOwner_keepsEvents.serve s _
  | packRelease => exact Host.Outcome.next.inj hx ▸ packReleaseOwner_keepsEvents.serve s _
  | powerSet => exact Host.Outcome.next.inj hx ▸ powerSetOwner_keepsEvents.serve s _
  | bridgeSet => exact Host.Outcome.next.inj hx ▸ bridgeSetOwner_keepsEvents.serve s _
  | lightSet => exact Host.Outcome.next.inj hx ▸ lightSetOwner_keepsEvents.serve s _
  | restart => exact Host.Outcome.next.inj hx ▸ restartOwner_keepsEvents.serve s _
  | curveWriteHeader => exact Host.Outcome.next.inj hx ▸ curveHeaderOwner_keepsEvents.serve s _
  | curveWritePoint => exact Host.Outcome.next.inj hx ▸ curvePointOwner_keepsEvents.serve s _
  | blBias => exact Host.Outcome.next.inj hx ▸ blBiasOwner_keepsEvents.serve s _
  | blForce => exact Host.Outcome.next.inj hx ▸ blForceOwner_keepsEvents.serve s _
  | blRelease => exact Host.Outcome.next.inj hx ▸ blReleaseOwner_keepsEvents.serve s _
  | routeWrite => exact Host.Outcome.next.inj hx ▸ routeWriteOwner_keepsEvents.serve s _
  | routeFlush => exact Host.Outcome.next.inj hx ▸ routeFlushOwner_keepsEvents.serve s _
  | routeRead => exact Host.Outcome.next.inj hx ▸ routeReadOwner_keepsEvents.serve s _
  | countSnapshot => exact Host.Outcome.next.inj hx ▸ countSnapshotOwner_keepsEvents.serve s _
  | countRead => exact Host.Outcome.next.inj hx ▸ countReadOwner_keepsEvents.serve s _
  | pass => exact Host.Outcome.next.inj hx ▸ passOwner_keepsEvents.serve s _
  | motionSet => exact Host.Outcome.next.inj hx ▸ motionSetOwner_keepsEvents.serve s _
  | dropRead => exact Host.Outcome.next.inj hx ▸ dropReadOwner_keepsEvents.serve s _
  | dropRelease => exact Host.Outcome.next.inj hx ▸ dropReleaseOwner_keepsEvents.serve s _
  | eventConfig => exact Host.Outcome.next.inj hx ▸ eventConfigOwner_keepsEvents.serve s _
  | noticeEnable => exact Host.Outcome.next.inj hx ▸ noticeEnableOwner_keepsEvents.serve s _
  | eventReadClear => exact Host.Outcome.next.inj hx ▸ eventReadClearOwner_keepsEvents.serve s _
  | holdNotices => exact Host.Outcome.next.inj hx ▸ OwnerKeepsEvents.serve (fun _ s => .holdNotices s _) s _
  | unknownRequest =>
    obtain rfl := Host.Outcome.next.inj hx
    split
    · split
      · exact .answer s _ _ _
      · exact .refl s
    · exact .refl s

theorem step_keepsEvents {s t : State} (h : step s = .next t) : KeepsEvents s t := by
  unfold step at h
  split at h
  · exact fun hs => exec_keepsEvents h hs
  · split at h
    · exact exec_keepsEvents h
    · exact Host.Outcome.next.inj h ▸ .tick s

/-- Settles O8: a raising delivers every condition that it may have changed (`KeepsEvents.raise_at`), a judgement and the requests
keep the live flags, and a reset makes the table anew from the conditions. -/
theorem eventTableStaysTrue : Obligations.EventTableStaysTrue := by
  unfold Obligations.EventTableStaysTrue
  exact fun s t h hstep => step_keepsEvents hstep h

end Sys2Proof.Machine
end

section
/-! The requests of NTU (R143 to R147): a judgement with its NOTICE (R140, R141), and what else an event of NTU leaves. -/

namespace Sys2Proof.Machine

/-! ### The NOTICE of a judgement -/

theorem Ntu.mem_eligibleLevels {n : Ntu} {l : Nat} :
    l ∈ n.eligibleLevels ↔ ∃ k e, n.table[k]? = some e ∧ n.eligible k e = true ∧ e.level = l := by
  constructor
  · intro h
    obtain ⟨⟨e, k⟩, hmem, rfl⟩ := List.mem_map.1 h
    obtain ⟨hget, hel⟩ := List.mem_filter.1 hmem
    exact ⟨k, e, List.mem_zipIdx_iff_getElem?.1 hget, hel, rfl⟩
  · rintro ⟨k, e, he, hel, rfl⟩
    exact Ntu.level_mem_eligibleLevels he hel

/-- The fold that finds the highest level finds one of the levels. -/
theorem foldl_max_mem (l : Nat) (ls : List Nat) : ls.foldl max l ∈ l :: ls := List.max?_mem List.max?_cons'

theorem Ntu.markNotified_latched (n : Ntu) : n.markNotified.table.map (·.latched) = n.table.map (·.latched) :=
  List.ext_getElem? fun k => by simp [Ntu.markNotified_entry, Function.comp_def]

theorem Ntu.markNotified_live (n : Ntu) : n.markNotified.table.map (·.live) = n.table.map (·.live) :=
  List.ext_getElem? fun k => by simp [Ntu.markNotified_entry, Function.comp_def]

@[simp] theorem mergeNotice_latched (w : Option Notice) (c : Notice) : (mergeNotice w c).latched = c.latched := by
  cases w <;> rfl
@[simp] theorem mergeNotice_live (w : Option Notice) (c : Notice) : (mergeNotice w c).live = c.live := by
  cases w <;> rfl

theorem le_mergeNotice_level (w : Option Notice) (c : Notice) : c.level ≤ (mergeNotice w c).level := by
  cases w
  · exact Nat.le_refl _
  · exact Nat.le_max_right _ _

/-- The level of a merged NOTICE is that of the one which waited or that of the new one (R141). -/
theorem mergeNotice_level (w : Option Notice) (c : Notice) :
    (∃ v, w = some v ∧ (mergeNotice w c).level = v.level) ∨ (mergeNotice w c).level = c.level := by
  cases w with
  | none => exact .inr rfl
  | some v => exact (Nat.le_total c.level v.level).imp (fun h => ⟨v, rfl, Nat.max_eq_left h⟩) Nat.max_eq_right

/-- A busy transmitter leaves a NOTICE in its slot (R166). -/
theorem Lki.transmit_placed_of_sending {l : Lki} (c : Notice) (h : l.sending.isSome = true) :
    { l with notice := some c }.transmit = { l with notice := some c } := Lki.transmit_of_sending _ h

/-- An idle transmitter takes a NOTICE as it is placed (R166). -/
theorem Lki.transmit_placed_of_idle {l : Lki} (c : Notice) (h : l.sending = none) :
    { l with notice := some c }.transmit = { l with sending := some (.notice c), notice := none } :=
  Lki.transmit_notice _ c h rfl

/-- The notified flags are those of the other table. -/
def Ntu.sameNotified (n n' : Ntu) : Prop :=
  ∀ k : Nat, (n'.table[k]?).map (·.notified) = (n.table[k]?).map (·.notified)

section
variable {s : State} {n : Ntu}

/-- A judgement notifies exactly what is eligible (R140). -/
theorem State.judge_newly (hn : s.ntu.sameNotified n) (k : Nat) :
    NewlyNotified s (s.setNtu n).judge k ↔ ∃ e, n.table[k]? = some e ∧ n.eligible k e = true := by
  unfold NewlyNotified
  rw [← hn k, State.judge_entry, State.setNtu_ntu]
  cases n.table[k]? with
  | none => simp
  | some e =>
    have hel : n.eligible k e = true → e.notified = false := fun h => ((Ntu.eligible_iff n k e).1 h).2.1
    cases hnot : e.notified <;> simp_all

theorem State.judge_judged (hn : s.ntu.sameNotified n) :
    Judged s (s.setNtu n).judge := by
  intro k a b ha hb
  rw [State.judge_entry, State.setNtu_ntu] at hb
  obtain ⟨e, he, rfl⟩ := Option.map_eq_some_iff.1 hb
  have hnot : e.notified = a.notified := by simpa [he, ha] using hn k
  have hmay : (s.setNtu n).judge.ntu.mayNotify k { e with notified := e.notified || n.eligible k e } ↔ n.mayNotify k e :=
    Ntu.mayNotify_congr (s.setNtu n).judge_globalEnable (s.setNtu n).judge_holdOff rfl
  rw [hmay, Bool.or_eq_true_iff, Ntu.eligible_iff, hnot]
  cases a.notified <;> simp

/-- The NOTICE that a judgement places has the content of R141. -/
theorem State.judge_content (hn : s.ntu.sameNotified n) {l : Nat}
    {ls : List Nat} (hls : n.eligibleLevels = l :: ls) :
    NoticeContent s (s.setNtu n).judge (mergeNotice s.lki.notice (n.notice (ls.foldl max l))) := by
  have hntu : (s.setNtu n).judge.ntu = n.markNotified := by rw [State.judge_places _ l ls hls]; rfl
  have hentry : ∀ {k : Nat} {e : EventEntry}, n.table[k]? = some e →
      (s.setNtu n).judge.ntu.table[k]? = some { e with notified := e.notified || n.eligible k e } := fun he => by
    rw [hntu, Ntu.markNotified_entry, he]; rfl
  refine ⟨?_, ?_, fun w hw => ?_, fun k e he hnew => ?_, ?_⟩
  · rw [hntu, n.markNotified_latched, mergeNotice_latched]; rfl
  · rw [hntu, n.markNotified_live, mergeNotice_live]; rfl
  · rw [hw]; exact Nat.le_max_left _ _
  · obtain ⟨d, hd, hel⟩ := (State.judge_newly hn k).1 hnew
    obtain rfl := Option.some.inj ((hentry hd).symm.trans he)
    have hmem : d.level ∈ l :: ls := hls ▸ Ntu.level_mem_eligibleLevels hd hel
    exact (le_foldl_max ls l _ ((List.mem_cons.1 hmem).imp_left le_of_eq)).trans (le_mergeNotice_level _ (n.notice _))
  · refine (mergeNotice_level s.lki.notice _).imp_right fun hlevel => ?_
    obtain ⟨k, d, hd, hel, hd'⟩ := Ntu.mem_eligibleLevels.1 (hls ▸ foldl_max_mem l ls : ls.foldl max l ∈ n.eligibleLevels)
    exact ⟨k, _, hentry hd, (State.judge_newly hn k).2 ⟨d, hd, hel⟩, hlevel.trans hd'.symm⟩

/-- A judgement is one in the sense of R141: its NOTICE waits, or an idle transmitter has it. -/
theorem State.judge_noticed (hn : s.ntu.sameNotified n) :
    Noticed s (s.setNtu n).judge := by
  cases hls : n.eligibleLevels with
  | nil =>
    have hsame : (s.setNtu n).judge = s.setNtu n := by simp [State.judge, hls]
    refine ⟨fun ⟨k, hk⟩ => ?_, fun _ _ => by rw [hsame]; rfl⟩
    obtain ⟨e, he, hel⟩ := (State.judge_newly hn k).1 hk
    simp [n.eligible_of_levels hls k e he] at hel
  | cons l ls =>
    have hlki : (s.setNtu n).judge.lki
        = { s.lki with notice := some (mergeNotice s.lki.notice (n.notice (ls.foldl max l))) }.transmit := by
      rw [State.judge_places _ l ls hls]; rfl
    refine ⟨fun _ => ⟨_, State.judge_content hn hls, fun hs => ?_, fun hs => ?_⟩, fun hnone => ?_⟩
    · rw [hlki, Lki.transmit_placed_of_sending _ hs]
    · rw [hlki, Lki.transmit_placed_of_idle _ hs]
      exact ⟨rfl, rfl⟩
    · obtain ⟨k, e, he, hel, _⟩ := Ntu.mem_eligibleLevels.1 (hls ▸ List.mem_cons_self : l ∈ n.eligibleLevels)
      exact absurd ((State.judge_newly hn k).2 ⟨e, he, hel⟩) (hnone k)

end

theorem not_newlyNotified_of_table {s t : State} (h : t.ntu.table = s.ntu.table) (k : Nat) : ¬NewlyNotified s t k := by
  rintro ⟨hs, ht⟩
  rw [h, hs] at ht
  exact absurd (Option.some.inj ht) Bool.false_ne_true

/-- An event that neither judges nor notifies. -/
theorem Noticed.of_stored {s : State} {n : Ntu} (h : n.table = s.ntu.table) : Noticed s (s.setNtu n) :=
  ⟨fun ⟨k, hk⟩ => absurd hk (not_newlyNotified_of_table h k), fun _ _ => rfl⟩

/-- A reply goes out behind the NOTICE (R166). -/
theorem Noticed.answer {s t : State} (h : Noticed s t) (hs : s.lki.sending.isSome = true → t.lki.sending.isSome = true)
    (g : Byte) (st : Status) (p : List Byte) : Noticed s (t.answer g st p) := by
  have hlki : t.lki.sending.isSome = true →
      (t.answer g st p).lki.notice = t.lki.notice ∧ (t.answer g st p).lki.sending = t.lki.sending := fun hsend => by
    rw [t.answer_lki, Lki.transmit_of_sending _ (by exact hsend)]
    exact ⟨rfl, rfl⟩
  have hsame : ∀ k, NewlyNotified s (t.answer g st p) k ↔ NewlyNotified s t k := fun k => by
    rw [NewlyNotified, t.answer_ntu, NewlyNotified]
  obtain ⟨hnew, hnone⟩ := h
  unfold Noticed NoticeContent at *
  simp only [hsame, State.answer_ntu]
  refine ⟨fun hk => ?_, fun hk hsend => (hlki (hs hsend)).1.trans (hnone hk hsend)⟩
  obtain ⟨c, hc, hbusy, hidle⟩ := hnew hk
  refine ⟨c, hc, fun hsend => (hlki (hs hsend)).1.trans (hbusy hsend), fun hsend => ?_⟩
  obtain ⟨htaken, hempty⟩ := hidle hsend
  obtain ⟨hnotice, hsending⟩ := hlki (by rw [htaken]; rfl)
  exact ⟨hsending.trans htaken, hnotice.trans hempty⟩

/-- Judged, an entry that was latched and may notify is notified (R140). -/
theorem Judged.notified {s t : State} {n : Ntu} (hj : Judged s t) (ho : n.onlyEvents [] t.ntu) (hn : n.table = s.ntu.table)
    {k : Nat} {e : EventEntry} (he : s.ntu.table[k]? = some e) (hl : e.latched = true) (hm : n.mayNotify k e) :
    (t.ntu.table[k]?).map (·.notified) = some true := by
  obtain ⟨hglobal, hhold, hlen, hset, hflags, _⟩ := ho
  rw [← hn] at he
  obtain ⟨e', he'⟩ : ∃ e', t.ntu.table[k]? = some e' :=
    ⟨_, List.getElem?_eq_getElem (hlen ▸ (List.getElem?_eq_some_iff.1 he).1 : k < t.ntu.table.length)⟩
  have hset' := hset k
  have hflags' := hflags k (by simp)
  rw [he, he'] at hset' hflags'
  obtain ⟨hlatched, _⟩ := Prod.mk.inj (Option.some.inj hflags')
  have hmay := (Ntu.mayNotify_congr hglobal hhold (Option.some.inj hset')).2 hm
  rw [he']
  exact congrArg some ((hj k e e' (hn ▸ he) he').2 (.inr ⟨hlatched.trans hl, hmay⟩))

/-! ### The events of NTU -/

/-- What an event of NTU leaves: every other block, but for the notice slot and an idle transmitter (R141, R166). -/
structure NoticeFrame (s t : State) : Prop where
  srt : t.srt = s.srt
  rqh : t.rqh = s.rqh
  ppc : t.ppc = s.ppc
  lmc : t.lmc = s.lmc
  mtm : t.mtm = s.mtm
  pending : t.pending = s.pending
  lki : s.lki.onlyNotice t.lki

theorem NoticeFrame.stored (s : State) (n : Ntu) : NoticeFrame s (s.setNtu n) :=
  ⟨rfl, rfl, rfl, rfl, rfl, rfl, Lki.onlyNotice_refl _⟩

theorem NoticeFrame.judged (s : State) (n : Ntu) : NoticeFrame s (s.setNtu n).judge :=
  ⟨by simp, by simp, by simp, by simp, by simp, by simp, (s.setNtu n).judge_onlyNotice⟩

/-- A request whose owner's event is one of NTU: its answer, and what it leaves (R154). -/
theorem State.serve_notice {s t : State} {c : RequestCode} {owner : List Byte → State → Answer} {tag : Byte}
    {a p : List Byte} (hs : Serving s c tag a) (hl : c.lengthOk a = true) (hr : c.reservedSet a = false)
    (ho : owner a s = ⟨t, .ok, p⟩) (hf : NoticeFrame s t) :
    Answered s (s.serve c owner) tag .ok p ∧ OnlyOwnReply s (s.serve c owner) ∧ (s.serve c owner).mtm = s.mtm
      ∧ (s.serve c owner).ntu = t.ntu ∧ (Noticed s t → Noticed s (s.serve c owner)) := by
  have hnorth := Lki.onlyNotice_north hf.lki
  have hans := s.serve_answered c owner tag a hs hl hr (by rw [ho]; exact Lki.onlyNotice_replyTrail hf.lki)
    (by rw [ho]; exact hf.rqh)
  rw [ho] at hans
  refine ⟨hans, ?_⟩
  rw [s.serve_ok c owner tag a hs hl hr, ho]
  dsimp only
  refine ⟨⟨?_, ?_, ?_, ?_, Lki.onlyNorth_trans hnorth (t.answer_onlyNorth _ _ _)⟩, ?_, t.answer_ntu _ _ _, fun h => ?_⟩
  · rw [State.answer_srt, hf.srt]
  · rw [State.answer_ppc, hf.ppc]
  · rw [State.answer_lmc, hf.lmc]
  · rw [State.answer_pending, hf.pending]
  · rw [State.answer_mtm, hf.mtm]
  · exact h.answer (fun hsend => by rwa [hnorth.2 hsend]) _ _ _

theorem Judged.of_ntu {s t t' : State} (h : Judged s t) (hntu : t'.ntu = t.ntu) : Judged s t' := by
  rw [Judged, hntu]
  exact h

/-- A request whose owner's event configures NTU and judges it (R140, R141). -/
theorem State.serve_judged {s : State} {n : Ntu} {c : RequestCode} {owner : List Byte → State → Answer} {tag : Byte}
    {a p : List Byte} (hs : Serving s c tag a) (hl : c.lengthOk a = true) (hr : c.reservedSet a = false)
    (ho : owner a s = ⟨(s.setNtu n).judge, .ok, p⟩) (hn : s.ntu.sameNotified n) :
    Answered s (s.serve c owner) tag .ok p ∧ OnlyOwnReply s (s.serve c owner) ∧ (s.serve c owner).mtm = s.mtm
      ∧ (s.serve c owner).ntu = (s.setNtu n).judge.ntu ∧ n.onlyEvents [] (s.serve c owner).ntu
      ∧ Noticed s (s.serve c owner) ∧ Judged s (s.serve c owner) := by
  obtain ⟨hans, honly, hmtm, hntu, hnoticed⟩ := State.serve_notice hs hl hr ho (.judged s n)
  refine ⟨hans, honly, hmtm, hntu, ?_, hnoticed (State.judge_noticed hn), (State.judge_judged hn).of_ntu hntu⟩
  rw [hntu]
  exact (s.setNtu n).judge_onlyEvents

theorem Answered.payload {s t : State} {tag : Byte} {st : Status} {p p' : List Byte} (h : Answered s t tag st p)
    (hp : p = p') : Answered s t tag st p' := hp ▸ h

/-! ### EVENT_READ_CLEAR -/

/-- Settles O57: the owner's event rewrites each entry by its mask flag, and answers the table that it found. -/
theorem eventReadClears : Obligations.EventReadClears := by
  unfold Obligations.EventReadClears
  intro s tag a hs hlen
  obtain ⟨hans, honly, hmtm, hntu, _⟩ := State.serve_notice
    (owner := fun a s => Answer.ok (s.setNtu (s.ntu.clear (u32 a 0))) s.ntu.readBytes) hs
    (RequestCode.lengthOk_of_length (by decide) hlen) rfl rfl (NoticeFrame.stored s _)
  refine ⟨_, rfl, honly, hmtm, by rw [hntu]; rfl, by rw [hntu]; rfl, by rw [hntu]; simp [Ntu.clear], fun k e he => ?_, ?_⟩
  · rw [hntu, State.setNtu_ntu, Ntu.clear_entry, he]
    rfl
  · refine hans.payload ?_
    unfold Ntu.readBytes
    cases s.ntu.holdOff <;> rfl

end Sys2Proof.Machine
end

section
/-! The hold-off (R145, R146) and the settings of the event table (R143, R144): what is stored, and the judgement after it. -/

namespace Sys2Proof.Machine

/-! ### The hold-off -/

/-- The remaining time after HOLD_NOTICES with `d` (R145, the table). -/
def heldOff : Option Nat → Nat → Option Nat
  | none, d => if d = 0 then none else some d
  | some r, d => if d = 0 then none else if r < d then some d else some r

theorem State.holdNotices_ends {s : State} {d : Nat} (h : s.ntu.holdOff.isSome = true) (hd : d = 0) :
    s.holdNotices d = s.endHoldOff := by
  obtain ⟨r, hr⟩ := Option.isSome_iff_exists.1 h
  simp [State.holdNotices, hr, hd]

/-- Without an end the remaining time alone is stored (R145). -/
theorem State.holdNotices_stores {s : State} {d : Nat} (h : s.ntu.holdOff = none ∨ d ≠ 0) :
    s.holdNotices d = s.setNtu { s.ntu with holdOff := heldOff s.ntu.holdOff d } := by
  have hsame : s = s.setNtu { s.ntu with holdOff := s.ntu.holdOff } := rfl
  unfold State.holdNotices heldOff
  cases hr : s.ntu.holdOff with
  | none =>
    rw [hr] at hsame
    dsimp only
    split
    · exact hsame
    · rfl
  | some r =>
    have hd : d ≠ 0 := h.resolve_left (by simp [hr])
    rw [hr] at hsame
    simp only [if_neg hd]
    split
    · rfl
    · exact hsame

/-- HOLD_NOTICES ends a running hold-off or stores the remaining time. -/
theorem State.holdNotices_cases (s : State) (d : Nat) :
    s.holdNotices d = (s.setNtu { s.ntu with holdOff := heldOff s.ntu.holdOff d }).judge
      ∨ s.holdNotices d = s.setNtu { s.ntu with holdOff := heldOff s.ntu.holdOff d } := by
  by_cases hend : s.ntu.holdOff.isSome = true ∧ d = 0
  · obtain ⟨hr, hd⟩ := hend
    refine .inl ?_
    rw [State.holdNotices_ends hr hd, State.endHoldOff]
    obtain ⟨r, hr⟩ := Option.isSome_iff_exists.1 hr
    simp [hr, hd, heldOff]
  · refine .inr (State.holdNotices_stores ?_)
    cases hr : s.ntu.holdOff with
    | none => exact .inl rfl
    | some r => exact .inr fun hd => hend ⟨by rw [hr]; rfl, hd⟩

theorem State.holdNotices_holdOff (s : State) (d : Nat) : (s.holdNotices d).ntu.holdOff = heldOff s.ntu.holdOff d := by
  rcases s.holdNotices_cases d with h | h <;> simp [h]

theorem State.holdNotices_frame (s : State) (d : Nat) : NoticeFrame s (s.holdNotices d) := by
  rcases s.holdNotices_cases d with h | h <;> rw [h]
  · exact .judged s _
  · exact .stored s _

theorem State.holdNotices_noticed (s : State) (d : Nat) : Noticed s (s.holdNotices d) := by
  rcases s.holdNotices_cases d with h | h <;> rw [h]
  · exact State.judge_noticed fun _ => rfl
  · exact .of_stored rfl

theorem State.holdNotices_onlyEvents (s : State) (d : Nat) :
    ({ s.ntu with holdOff := (s.holdNotices d).ntu.holdOff }).onlyEvents [] (s.holdNotices d).ntu := by
  rw [s.holdNotices_holdOff]
  rcases s.holdNotices_cases d with h | h <;> rw [h]
  · exact State.judge_onlyEvents (s.setNtu { s.ntu with holdOff := heldOff s.ntu.holdOff d })
  · exact Ntu.onlyEvents_refl _ _

theorem State.endHoldOff_judged (s : State) : Judged s s.endHoldOff := State.judge_judged fun _ => rfl

theorem State.holdNotices_judged (s : State) {d : Nat} (h : s.ntu.holdOff.isSome = true) (hd : d = 0) :
    Judged s (s.holdNotices d) := by
  rw [State.holdNotices_ends h hd]
  exact s.endHoldOff_judged

theorem State.endHoldOff_onlyEvents (s : State) : ({ s.ntu with holdOff := none }).onlyEvents [] s.endHoldOff.ntu :=
  State.judge_onlyEvents (s.setNtu { s.ntu with holdOff := none })

/-- Where a judgement notified an entry, its NOTICE waits unless the transmitter was idle (R141, R166). -/
theorem Noticed.waits {s t : State} (h : Noticed s t) {k : Nat} (hk : NewlyNotified s t k) :
    t.lki.notice.isSome = true ∨ s.lki.sending = none := by
  obtain ⟨c, _, hbusy, _⟩ := h.1 ⟨k, hk⟩
  cases hs : s.lki.sending with
  | none => exact .inr rfl
  | some f => exact .inl (by rw [hbusy (by rw [hs]; rfl)]; rfl)

/-- Settles O58: HOLD_NOTICES ends a running hold-off or stores the time (`State.holdNotices_cases`), and an end by either way is
one judgement without a hold-off. -/
theorem holdOffDelaysNotices : Obligations.HoldOffDelaysNotices := by
  unfold Obligations.HoldOffDelaysNotices
  refine ⟨fun s tag lo hi hs => ?request, fun s hrun => ?expiry⟩
  case request =>
    dsimp only
    obtain ⟨hans, honly, hmtm, hntu, hnoticed⟩ := State.serve_notice
      (owner := fun a s => Answer.ok (s.holdNotices (u16 a 0)) (optField 2 le16 (s.holdNotices (u16 a 0)).ntu.holdOff))
      hs rfl rfl rfl (s.holdNotices_frame _)
    generalize hd : lo.toNat + 256 * hi.toNat = d
    have harg : u16 [lo, hi] 0 = d := hd
    rw [harg] at hans hntu hnoticed
    have hevents := s.holdNotices_onlyEvents d
    rw [← hntu] at hevents
    have hjudged := fun hr h0 => (s.holdNotices_judged (d := d) hr h0).of_ntu hntu
    refine ⟨_, rfl, honly, hmtm, hnoticed (s.holdNotices_noticed d), ?_, hevents, hjudged, fun h => ?_,
      fun hr h0 k e he hl _ hen hlev hglobal => ?_, hans.payload ?_⟩
    · rw [hntu, s.holdNotices_holdOff]
      cases s.ntu.holdOff <;> rfl
    · rw [hntu, State.holdNotices_stores h]
      rfl
    · refine (hjudged hr h0).notified hevents rfl he hl (.inr ⟨hen, hlev, hglobal, .inr ?_⟩)
      rw [hntu, State.holdNotices_ends hr h0]
      exact (s.setNtu { s.ntu with holdOff := none }).judge_holdOff
    · rw [hntu]
      cases (s.holdNotices d).ntu.holdOff <;> rfl
  case expiry =>
    have hframe : NoticeFrame s s.endHoldOff := .judged s _
    have hnoticed : Noticed s s.endHoldOff := State.judge_noticed fun _ => rfl
    refine ⟨s.endHoldOff, congrArg Host.Outcome.next (if_pos hrun), by simp [State.endHoldOff], s.endHoldOff_onlyEvents,
      s.endHoldOff_judged, hnoticed, fun k e he hl hn hm => ?_, hframe.lki, hframe.srt, hframe.rqh, hframe.ppc, hframe.lmc,
      hframe.mtm, hframe.pending⟩
    have hnotified := s.endHoldOff_judged.notified s.endHoldOff_onlyEvents rfl he hl
      (hm.imp_right fun ⟨hen, hlev, hglobal⟩ => ⟨hen, hlev, hglobal, .inr rfl⟩)
    exact ⟨hnotified, hnoticed.waits ⟨by rw [he, ← hn]; rfl, hnotified⟩⟩

/-! ### EVENT_CONFIG -/

/-- An entry with a new enable and level (R143). -/
def EventEntry.configured (enable : Bool) (level : Nat) (e : EventEntry) : EventEntry :=
  { e with enable := enable, level := level }

/-- A soft entry may notify by its own settings alone (R140). -/
theorem Ntu.mayNotify_soft {n : Ntu} {k : Nat} {e : EventEntry} (h : hardLevel k = none) : n.mayNotify k e ↔
    e.enable = true ∧ 1 ≤ e.level ∧ n.globalEnable = true ∧ (6 ≤ e.level ∨ n.holdOff = none) := by
  simp [Ntu.mayNotify, h]

/-- What a judgement makes of a soft entry that waits (R140). -/
theorem Judged.soft {s t : State} (h : Judged s t) {k : Nat} {e e' : EventEntry} (he : s.ntu.table[k]? = some e)
    (he' : t.ntu.table[k]? = some e') (hsoft : hardLevel k = none) (hl : e'.latched = true) (hn : e.notified = false) :
    e'.notified = true ↔ e'.enable = true ∧ 1 ≤ e'.level ∧ t.ntu.globalEnable = true
      ∧ (6 ≤ e'.level ∨ t.ntu.holdOff = none) := by
  rw [h k e e' he he', Ntu.mayNotify_soft hsoft, hl, hn]
  simp

section
variable (s : State) {k en lv : Byte}

theorem eventConfigOwner_badIndex (h : 31 < k.toNat) : eventConfigOwner [k, en, lv] s = ⟨s, .badIndex, []⟩ := if_pos h

theorem eventConfigOwner_hard {l : Nat} (hk : k.toNat ≤ 31) (hen : en.toNat ≤ 1) (hl : hardLevel k.toNat = some l)
    (hlv : lv.toNat ≠ l) : eventConfigOwner [k, en, lv] s = ⟨s, .refused, [8#8]⟩ := by
  simp [eventConfigOwner, u8, hk.not_gt, hen.not_gt, hl, Ne.symm hlv, Answer.reason, Reason.code, b8]

theorem eventConfigOwner_badLevel (hk : k.toNat ≤ 31) (hen : en.toNat ≤ 1) (hl : hardLevel k.toNat = none)
    (hlv : 7 < lv.toNat) : eventConfigOwner [k, en, lv] s = ⟨s, .badField, []⟩ := by
  simp [eventConfigOwner, u8, hk.not_gt, hen.not_gt, hl, hlv, Answer.refuse]

theorem eventConfigOwner_stored (hk : k.toNat ≤ 31) (hen : en.toNat ≤ 1)
    (hl : hardLevel k.toNat = some lv.toNat ∨ (hardLevel k.toNat = none ∧ lv.toNat ≤ 7)) :
    eventConfigOwner [k, en, lv] s =
      ⟨(s.setNtu (s.ntu.editEntry k.toNat (EventEntry.configured (decide (en.toNat = 1)) lv.toNat))).judge, .ok,
        [k, en, lv]⟩ := by
  have hsets : (fun e : EventEntry => { e with enable := en.toNat == 1, level := lv.toNat })
      = EventEntry.configured (decide (en.toNat = 1)) lv.toNat := rfl
  rcases hl with hl | ⟨hl, hlv⟩
  · simp [eventConfigOwner, u8, hk.not_gt, hen.not_gt, hl, Answer.ok, b8, hsets]
  · simp [eventConfigOwner, u8, hk.not_gt, hen.not_gt, hl, hlv.not_gt, Answer.ok, b8, hsets]

end

theorem Ntu.editEntry_sameNotified (n : Ntu) (k : Nat) (enable : Bool) (level : Nat) :
    n.sameNotified (n.editEntry k (EventEntry.configured enable level)) := fun i => by
  rw [Ntu.editEntry_entry, Option.map_map]
  congr 1
  funext e
  exact (apply_ite EventEntry.notified _ _ _).trans (ite_self _)

/-- An entry after EVENT_CONFIG: configured where it is the one named, and judged (R143). -/
theorem State.configured_entry (s : State) (k : Nat) (enable : Bool) (level j : Nat) :
    (s.setNtu (s.ntu.editEntry k (EventEntry.configured enable level))).judge.ntu.table[j]?.map
        (fun e => (e.latched, e.live, e.enable, e.level))
      = s.ntu.table[j]?.map fun e => (e.latched, e.live, if k = j then (enable, level) else (e.enable, e.level)) := by
  rw [State.judge_entry, State.setNtu_ntu, Ntu.editEntry_entry, Option.map_map, Option.map_map]
  congr 1
  funext e
  by_cases h : k = j <;> simp [h, EventEntry.configured]

/-- EVENT_CONFIG takes its first reserved bit at the enable (R153). -/
theorem eventConfig_reservedSet {k en lv : Byte} (h : en.toNat ≤ 1) :
    RequestCode.reservedSet .eventConfig [k, en, lv] = false := by
  simpa [RequestCode.reservedSet, RequestCode.reserved, u8] using Nat.lt_succ_of_le h

/-! ### NOTICE_ENABLE -/

section
variable (s : State) {v : Byte}

theorem noticeEnable_reservedSet (h : v.toNat ≤ 1) : RequestCode.reservedSet .noticeEnable [v] = false := by
  simpa [RequestCode.reservedSet, RequestCode.reserved, u8] using Nat.lt_succ_of_le h

theorem noticeEnable_reservedSet_of_lt (h : 1 < v.toNat) : RequestCode.reservedSet .noticeEnable [v] = true := by
  simpa [RequestCode.reservedSet, RequestCode.reserved, u8] using Nat.succ_le_of_lt h

/-- NTU with the global enable given. -/
def Ntu.enabled (n : Ntu) (b : Bool) : Ntu := { n with globalEnable := b }

theorem noticeEnableOwner_on (h : v.toNat = 1) (hoff : s.ntu.globalEnable = false) :
    noticeEnableOwner [v] s = ⟨(s.setNtu (s.ntu.enabled true)).judge, .ok, [v]⟩ := by
  obtain rfl : v = 1#8 := BitVec.eq_of_toNat_eq h
  simp [noticeEnableOwner, u8, Answer.ok, hoff, b8, Ntu.enabled]

theorem noticeEnableOwner_still (hv : v.toNat ≤ 1) (h : v.toNat = 0 ∨ s.ntu.globalEnable = true) :
    noticeEnableOwner [v] s = ⟨s.setNtu (s.ntu.enabled (decide (v.toNat = 1))), .ok, [v]⟩ := by
  have hjudge : (v.toNat = 1 && !s.ntu.globalEnable) = false := by rcases h with h | h <;> simp [h]
  have hequal : (v.toNat == 1) = decide (v.toNat = 1) := rfl
  simp [noticeEnableOwner, u8, Answer.ok, hv.not_gt, hjudge, hequal, b8, Ntu.enabled]

end

/-- Settles O56: each request stores what it is given and judges the table so configured (`State.serve_judged`), NOTICE_ENABLE
only when it turns the notices on. -/
theorem noticeConfigurationJudges : Obligations.NoticeConfigurationJudges := by
  unfold Obligations.NoticeConfigurationJudges
  refine ⟨fun s tag k en lv hs hen => ?config, fun s tag v hs => ⟨fun hbad => ?refused, fun hv => ?enable⟩⟩
  case config =>
    have hres := eventConfig_reservedSet (k := k) (lv := lv) hen
    refine ⟨fun hk => ⟨_, rfl, s.serve_only _ _ tag _ _ _ hs rfl hres (eventConfigOwner_badIndex s hk)⟩,
      fun l hk hl hlv => ⟨_, rfl, s.serve_only _ _ tag _ _ _ hs rfl hres (eventConfigOwner_hard s hk hen hl hlv)⟩,
      fun hk hl hlv => ⟨_, rfl, s.serve_only _ _ tag _ _ _ hs rfl hres (eventConfigOwner_badLevel s hk hen hl hlv)⟩,
      fun e he hk hl => ?_⟩
    obtain ⟨hans, honly, hmtm, hntu, ⟨hglobal, hhold, _⟩, hnoticed, hjudged⟩ :=
      State.serve_judged hs rfl hres (eventConfigOwner_stored s hk hen hl) (s.ntu.editEntry_sameNotified _ _ _)
    have hentry := s.configured_entry k.toNat (decide (en.toNat = 1)) lv.toNat
    rw [← hntu] at hentry
    have hk' := hentry k.toNat
    rw [he] at hk'
    obtain ⟨e', he', hfields⟩ := Option.map_eq_some_iff.1 hk'
    simp only [if_pos, Prod.mk.injEq] at hfields
    obtain ⟨hlatched, hlive, henable, hlevel⟩ := hfields
    have hnotified : hardLevel k.toNat = none → e.latched = true → e.notified = false →
        (e'.notified = true ↔ en.toNat = 1 ∧ 1 ≤ lv.toNat ∧ s.ntu.globalEnable = true
          ∧ (6 ≤ lv.toNat ∨ s.ntu.holdOff = none)) := fun hsoft hl hn => by
      rw [hjudged.soft he he' hsoft (hlatched.trans hl) hn, henable, hlevel, hglobal, hhold, decide_eq_true_iff]
      rfl
    refine ⟨_, e', rfl, honly, hmtm, hans, hglobal, hhold, hnoticed, he', henable, hlevel, hlatched, hlive,
      fun hl hn hsoft h1 h2 h3 h4 => (hnotified hsoft hl hn).2 ⟨h1, h2, h3, h4⟩, fun hl hn hsoft hnot => ?_, hjudged,
      fun j hj => by simp [hentry, hj.symm]⟩
    rw [← Bool.not_eq_true, hnotified hsoft hl hn]
    rintro ⟨h1, h2, h3, h4⟩
    rcases hnot with h | h | h | ⟨h, hrun⟩
    · omega
    · omega
    · simp [h] at h3
    · rcases h4 with h4 | h4
      · omega
      · simp [h4] at hrun
  case refused =>
    have hserve := s.serve_badField .noticeEnable noticeEnableOwner tag [v] hs rfl (noticeEnable_reservedSet_of_lt hbad)
    exact ⟨_, congrArg Host.Outcome.next hserve, s.answered _ _ _, s.answer_onlyNorth _ _ _, by simp⟩
  case enable =>
    have hres := noticeEnable_reservedSet hv
    by_cases hon : v.toNat = 1 ∧ s.ntu.globalEnable = false
    · obtain ⟨h1, hoff⟩ := hon
      obtain ⟨hans, honly, hmtm, _, hevents, hnoticed, hjudged⟩ :=
        State.serve_judged hs rfl hres (noticeEnableOwner_on s h1 hoff) fun _ => rfl
      have ⟨hglobal, hhold, _⟩ := hevents
      refine ⟨_, rfl, hans, honly, hmtm, ?_, hhold, hnoticed, ?_, fun _ _ => hjudged, fun h => ?_,
        fun _ _ k e he hl _ hen hlev h6 => hjudged.notified hevents rfl he hl (.inr ⟨hen, hlev, rfl, h6⟩)⟩
      · rw [hglobal, h1]; rfl
      · rw [hglobal]; exact hevents
      · rcases h with h | h
        · omega
        · simp [hoff] at h
    · have hstill : v.toNat = 0 ∨ s.ntu.globalEnable = true := by
        rcases Nat.le_one_iff_eq_zero_or_eq_one.1 hv with h | h
        · exact .inl h
        · exact .inr (by simpa using fun hf => hon ⟨h, hf⟩)
      obtain ⟨hans, honly, hmtm, hntu, hnoticed⟩ :=
        State.serve_notice hs rfl hres (noticeEnableOwner_still s hv hstill) (.stored s _)
      have htable : (s.serve .noticeEnable noticeEnableOwner).ntu.table = s.ntu.table := by rw [hntu]; rfl
      have hnoticed' := hnoticed (.of_stored rfl)
      refine ⟨_, rfl, hans, honly, hmtm, by rw [hntu]; rfl, by rw [hntu]; rfl, hnoticed', ?_,
        fun h1 h2 => absurd ⟨h1, h2⟩ hon, fun _ => ⟨htable, hnoticed'.2 (not_newlyNotified_of_table htable)⟩,
        fun h1 h2 => absurd ⟨h1, h2⟩ hon⟩
      rw [hntu]
      exact Ntu.onlyEvents_refl _ _

end Sys2Proof.Machine
end

section
/-! The requests of RQH: the row and the owner of each code, the checks before the owner (R153, R154), and the requests that LKI
owns itself (R155 to R157). -/

namespace Sys2Proof.Machine

/-! ### The part's own events -/

/-- With no command waiting the part takes its own event (log entry 3). -/
theorem step_ownEvent {s : State} {i : Instr} (hp : s.pending = []) (hi : s.ownEvent = some i) : step s = exec i s := by
  simp only [step, hp, hi]

/-- With no command waiting and no event due, one millisecond passes (log entry 3). -/
theorem step_tick {s : State} (hp : s.pending = []) (hi : s.ownEvent = none) : step s = .next s.tick := by
  simp only [step, hp, hi]

/-- The request in progress comes before any timer (log entry 3). -/
theorem State.ownEvent_inProgress {s : State} {r : Request} (h : s.rqh.inProgress = some r) :
    s.ownEvent = some (((RequestCode.ofByte r.code).map RequestCode.row).getD .unknownRequest) := by
  simp only [State.ownEvent, h]

/-- Settles O2: the part's own event is the request in progress before any timer, and with none a millisecond passes. -/
theorem emptyQueueRunsThePart : Obligations.EmptyQueueRunsThePart := by
  unfold Obligations.EmptyQueueRunsThePart
  intro s hp
  exact ⟨fun r hr => step_ownEvent hp (State.ownEvent_inProgress hr), fun i hi => step_ownEvent hp hi, step_tick hp⟩

/-! ### Rows and owners -/

/-- The event of the owner of a request, which gives the reply (R154). -/
def RequestCode.owner : RequestCode → List Byte → State → Answer
  | .identify => fun _ s => Answer.ok s identity
  | .linkSet => fun a s => Answer.ok (s.setLki (s.lki.setSilence (u8 a 0))) (b8 (u8 a 0))
  | .linkStatus => fun _ s => Answer.ok s s.lki.statusBytes
  | .routeWrite => routeWriteOwner
  | .routeRead => routeReadOwner
  | .routeFlush => routeFlushOwner
  | .countSnapshot => countSnapshotOwner
  | .countRead => countReadOwner
  | .pass => passOwner
  | .packProfileWrite => packProfileOwner
  | .packStatus => packStatusOwner
  | .packRelease => packReleaseOwner
  | .powerSet => powerSetOwner
  | .bridgeSet => bridgeSetOwner
  | .powerStatus => fun _ s => Answer.ok s s.ppc.statusBytes
  | .lightSet => lightSetOwner
  | .curveWriteHeader => curveHeaderOwner
  | .curveWritePoint => curvePointOwner
  | .curveRead => fun _ s => Answer.ok s s.lmc.curve.bytes
  | .blBias => blBiasOwner
  | .blForce => blForceOwner
  | .blRelease => blReleaseOwner
  | .blStatus => fun _ s => Answer.ok s s.lmc.statusBytes
  | .motionSet => motionSetOwner
  | .motionStatus => fun _ s => Answer.ok s s.mtm.statusBytes
  | .dropRead => dropReadOwner
  | .dropRelease => dropReleaseOwner
  | .eventConfig => eventConfigOwner
  | .noticeEnable => noticeEnableOwner
  | .eventReadClear => fun a s => Answer.ok (s.setNtu (s.ntu.clear (u32 a 0))) s.ntu.readBytes
  | .holdNotices => fun a s =>
    Answer.ok (s.holdNotices (u16 a 0)) (optField 2 le16 (s.holdNotices (u16 a 0)).ntu.holdOff)
  | .restart => restartOwner

/-- The row of a request serves it through its owner (log entry 1). -/
theorem exec_row (c : RequestCode) (s : State) : exec c.row s = .next (s.serve c c.owner) := by cases c <;> rfl

/-! ### The checks before the owner -/

theorem State.answer_onlyReply (s : State) (g : Byte) (st : Status) (p : List Byte) : OnlyReply s (s.answer g st p) :=
  ⟨State.answer_onlyNorth _ _ _ _, by simp⟩

theorem RequestCode.ofByte_eq_none {b : Byte} (h : ∀ c : RequestCode, c.byte ≠ b) : RequestCode.ofByte b = none :=
  List.find?_eq_none.2 fun c _ hc => h c (beq_iff_eq.1 hc)

/-- A request in progress whose code names no request is answered UNKNOWN (R153). -/
theorem exec_unknownRequest {s : State} {r : Request} (hr : s.rqh.inProgress = some r)
    (hcode : ∀ c : RequestCode, c.byte ≠ r.code) : exec .unknownRequest s = .next (s.answer r.tag .unknown []) := by
  simp only [exec, execUnknownRequest, hr, RequestCode.ofByte_eq_none hcode, Option.isNone_none, if_true]

/-- Settles O39: each check that fails places its reply on the state as it stands. -/
theorem failedChecksAreAnswered : Obligations.FailedChecksAreAnswered := by
  unfold Obligations.FailedChecksAreAnswered
  intro c s tag args hs
  refine ⟨fun hlen => ⟨s.answer tag .badLength [], ?length, s.answered _ _ _, s.answer_onlyReply _ _ _⟩,
    fun hlen hres => ⟨s.answer tag .badField [], ?reserved, s.answered _ _ _, s.answer_onlyReply _ _ _⟩,
    fun u r hr hcode => ⟨_, exec_unknownRequest hr hcode, u.answered _ _ _, u.answer_onlyReply _ _ _⟩⟩
  case length => rw [exec_row, s.serve_badLength c c.owner tag args hs hlen]
  case reserved => rw [exec_row, s.serve_badField c c.owner tag args hs hlen hres]

/-! ### The requests of LKI -/

/-- SILENCE_TIMEOUT as LINK_SET leaves it in ATTENDED (R156). -/
theorem Lki.setSilence_attended {l : Lki} (h : l.regime = .attended) (v : Nat) : l.setSilence v =
    { l with silenceTimeout := v, silenceTimer := if v = 0 then none else some (v * 100) } := by
  simp [Lki.setSilence, h]

/-- The owner's event of LINK_SET in ATTENDED (R156). -/
theorem linkSetOwner_attended {s : State} (h : s.lki.regime = .attended) (v : Byte) : RequestCode.owner .linkSet [v] s =
    ⟨s.setLki { s.lki with silenceTimeout := v.toNat, silenceTimer := if v.toNat = 0 then none else some (v.toNat * 100) },
      .ok, [v]⟩ := by
  change Answer.ok (s.setLki (s.lki.setSilence v.toNat)) (b8 (u8 [v] 0)) = _
  rw [Lki.setSilence_attended h, b8_u8]
  rfl

/-- The LINK_STATUS payload, field by field (R157, R172). -/
theorem Lki.statusBytes_eq (l : Lki) : l.statusBytes =
    [if l.regime = .attended then 0#8 else 1#8, BitVec.ofNat 8 l.silenceTimeout]
      ++ (match l.silenceTimer with
          | none => [0#8, 0#8, 0#8]
          | some ms => 1#8 :: le16 ms)
      ++ le16 l.linkErrors ++ le16 l.ports.fp0.errors ++ le16 l.ports.fp1.errors ++ le16 l.ports.fp2.errors
      ++ le16 l.ports.fp3.errors
      ++ [BitVec.ofNat 8 l.samples.length, BitVec.ofNat 8 l.replyCount, BitVec.ofNat 8 l.busyCount]
      ++ [PortId.fp0, .fp1, .fp2, .fp3].map fun p => if (l.ports.get p).buffer.isSome then 1#8 else 0#8 := by
  have hregime : b8 l.regime.code = [if l.regime = .attended then 0#8 else 1#8] := by cases l.regime <;> rfl
  have hflag : ∀ b : Bool, flag b = [if b then 1#8 else 0#8] := fun b => by cases b <;> rfl
  unfold Lki.statusBytes
  simp only [hregime, hflag, List.append_assoc]
  cases l.silenceTimer <;> rfl

/-- Settles O40: the two requests that report are answered on the state as it stands, and LINK_SET on the state that its owner
leaves. -/
theorem linkRequestsAnswer : Obligations.LinkRequestsAnswer := by
  unfold Obligations.LinkRequestsAnswer
  refine fun s tag => ⟨fun hs => ?identify, fun v hs hr => ?linkSet, fun hs => ?linkStatus⟩
  case identify =>
    obtain ⟨hans, honly⟩ := s.serve_only .identify _ tag [] _ _ hs rfl rfl (rfl : RequestCode.owner .identify [] s = _)
    exact ⟨_, rfl, honly, hans⟩
  case linkSet =>
    have howner := linkSetOwner_attended hr v
    have hans := s.serve_answered .linkSet (RequestCode.owner .linkSet) tag [v] hs rfl rfl (by rw [howner]; rfl)
      (by rw [howner]; rfl)
    have hserve := s.serve_ok .linkSet (RequestCode.owner .linkSet) tag [v] hs rfl rfl
    rw [howner] at hans hserve
    refine ⟨_, exec_row .linkSet s, hans, ?_⟩
    rw [hserve, State.answer_silenceTimeout, State.answer_silenceTimer]
    exact ⟨rfl, rfl, State.answer_onlyReply _ _ _ _⟩
  case linkStatus =>
    obtain ⟨hans, honly⟩ := s.serve_only .linkStatus _ tag [] _ _ hs rfl rfl (rfl : RequestCode.owner .linkStatus [] s = _)
    rw [Lki.statusBytes_eq] at hans
    exact ⟨_, rfl, honly, hans⟩

end Sys2Proof.Machine
end

section
/-! The queues of the link (R150 to R152, R154, R166, R167): what an event that touches no queue keeps of them, and what the
placings and takings do. -/

namespace Sys2Proof.Machine

/-! ### What soundness rests on -/

/-- The notice slot, the queues and the transmitter. -/
def Lki.north (l : Lki) : Option Notice × List StreamItem × List Sample × Option OutFrame :=
  (l.notice, l.stream, l.samples, l.sending)

/-- The requests that RQH holds. -/
def Rqh.held (r : Rqh) : List Request × Option Request := (r.queue, r.inProgress)

/-- No queue stands above its places, and a request in progress has a place for its reply (R150 to R152, R167). -/
structure State.WithinPlaces (s : State) : Prop where
  requests : s.rqh.queue.length ≤ Config.requestPlaces
  replies : s.lki.replyCount ≤ Config.replyPlaces
  busy : s.lki.busyCount ≤ Config.busyPlaces
  samples : s.lki.samples.length ≤ Config.samplePlaces
  room : s.rqh.inProgress.isSome = true → s.lki.replyCount < Config.replyPlaces

/-- An idle transmitter has nothing to send (R166). -/
def Lki.IdleIsEmpty (l : Lki) : Prop := l.sending = none → l.notice = none ∧ l.stream = [] ∧ l.samples = []

theorem State.queuesSound_iff (s : State) :
    s.queuesSound ↔ s.WithinPlaces ∧ s.lki.IdleIsEmpty ∧ (s.rqh.inProgress = none → s.headWaits) :=
  ⟨fun ⟨requests, replies, busy, samples, room, idle, waits⟩ => ⟨⟨requests, replies, busy, samples, room⟩, idle, waits⟩,
    fun ⟨p, idle, waits⟩ => ⟨p.requests, p.replies, p.busy, p.samples, p.room, idle, waits⟩⟩

theorem State.queuesSound_congr {s t : State} (hl : t.lki.north = s.lki.north) (hr : t.rqh.held = s.rqh.held) :
    t.queuesSound ↔ s.queuesSound := by
  simp only [Lki.north, Rqh.held, Prod.mk.injEq] at hl hr
  obtain ⟨hnotice, hstream, hsamples, hsending⟩ := hl
  obtain ⟨hqueue, hprogress⟩ := hr
  simp only [State.queuesSound, State.headWaits, Lki.replyCount, Lki.busyCount, hnotice, hstream, hsamples, hsending, hqueue,
    hprogress]

/-! ### Takings and placings -/

theorem State.takeRequest_withinPlaces {s : State} (h : s.WithinPlaces) : s.takeRequest.WithinPlaces := by
  rcases s.takeRequest_cases with ⟨r, rest, _, hqueue, hroom, _, ht⟩ | ⟨ht, _⟩ <;> rw [ht]
  · have hlen : rest.length ≤ Config.requestPlaces := by
      have := h.requests
      rw [hqueue, List.length_cons] at this
      exact Nat.le_of_succ_le this
    exact ⟨hlen, h.replies, h.busy, h.samples, fun _ => hroom⟩
  · exact h

theorem State.transmit_withinPlaces {s : State} (h : s.WithinPlaces) : (s.setLki s.lki.transmit).WithinPlaces where
  requests := h.requests
  replies := s.lki.transmit_replyCount_le.trans h.replies
  busy := s.lki.transmit_busyCount_le.trans h.busy
  samples := s.lki.transmit_samples_le.trans h.samples
  room hp := s.lki.transmit_replyCount_le.trans_lt (h.room hp)

/-- The transmitter and RQH take what they may, so that neither waits without cause (R152, R166). -/
theorem State.pump_queuesSound {s : State} (h : s.WithinPlaces) : s.pump.queuesSound := by
  have hplaces : s.pump.WithinPlaces := State.takeRequest_withinPlaces (State.transmit_withinPlaces h)
  refine s.pump.queuesSound_iff.2 ⟨hplaces, ?_, State.takeRequest_headWaits _⟩
  rw [State.pump_lki]
  exact s.lki.transmit_idle

theorem Lki.place_replyCount (l : Lki) (x : StreamItem) : (l.place x).replyCount = l.replyCount + if x.isReply then 1 else 0 := by
  simp [Lki.replyCount, Lki.place, List.countP_append, List.countP_singleton]

theorem Lki.place_busyCount (l : Lki) (x : StreamItem) : (l.place x).busyCount = l.busyCount + if x.isReply then 0 else 1 := by
  cases x <;> simp [Lki.busyCount, Lki.place, List.countP_append, StreamItem.isReply]

/-- A request in progress has its place, so its reply overfills nothing (R152, R154). -/
theorem State.answer_queuesSound {s : State} (h : s.queuesSound) (hp : s.rqh.inProgress.isSome = true) (g : Byte) (st : Status)
    (p : List Byte) : (s.answer g st p).queuesSound := by
  obtain ⟨hplaces, _, _⟩ := s.queuesSound_iff.1 h
  refine State.pump_queuesSound ⟨hplaces.requests, ?_, ?_, hplaces.samples, fun hnone => absurd hnone Bool.false_ne_true⟩
  · simpa [Lki.place_replyCount, StreamItem.isReply] using hplaces.room hp
  · simpa [Lki.place_busyCount, StreamItem.isReply] using hplaces.busy

theorem State.placeSample_queuesSound {s : State} (h : s.queuesSound) (hroom : s.lki.sampleRoom = true) (x : Sample) :
    (s.placeSample x).queuesSound := by
  obtain ⟨hplaces, _, _⟩ := s.queuesSound_iff.1 h
  refine State.pump_queuesSound ⟨hplaces.requests, hplaces.replies, hplaces.busy, ?_, hplaces.room⟩
  rw [State.setLki_lki, List.length_append]
  exact of_decide_eq_true hroom

/-! ### Links of a command's chain -/

/-- A link that keeps the request in progress and leaves the queues sound. -/
structure KeepsQueues (s t : State) : Prop where
  inProgress : t.rqh.inProgress = s.rqh.inProgress
  sound : s.queuesSound → t.queuesSound

theorem KeepsQueues.refl (s : State) : KeepsQueues s s := ⟨rfl, id⟩

theorem KeepsQueues.trans {s u t : State} (h1 : KeepsQueues s u) (h2 : KeepsQueues u t) : KeepsQueues s t :=
  ⟨h2.inProgress.trans h1.inProgress, h2.sound ∘ h1.sound⟩

/-- A change outside the queues. -/
theorem KeepsQueues.of_same {s t : State} (hl : t.lki.north = s.lki.north) (hr : t.rqh.held = s.rqh.held) : KeepsQueues s t :=
  ⟨congrArg Prod.snd hr, (State.queuesSound_congr hl hr).2⟩

/-- A NOTICE is placed or merged, and an idle transmitter takes it at once (R141, R166). -/
theorem KeepsQueues.judge (s : State) : KeepsQueues s s.judge where
  inProgress := by rw [State.judge_rqh]
  sound h := by
    rcases s.judge_cases with ⟨_, hj⟩ | ⟨n, hj⟩
    · rwa [hj]
    · obtain ⟨hplaces, _, hwaits⟩ := s.queuesSound_iff.1 h
      have hstream := s.judge_lki_stream
      have hsamples := s.judge_lki_samples
      refine (State.queuesSound_iff _).2 ⟨?_, ?_, ?_⟩
      · refine ⟨?_, ?_, ?_, ?_, ?_⟩ <;> simp only [State.judge_rqh, Lki.replyCount, Lki.busyCount, hstream, hsamples]
        exacts [hplaces.requests, hplaces.replies, hplaces.busy, hplaces.samples, hplaces.room]
      · rw [hj]
        exact Lki.transmit_idle { s.lki with notice := some n }
      · simpa only [State.headWaits, State.judge_rqh, Lki.replyCount, hstream] using hwaits

theorem KeepsQueues.raise (s : State) (ps : List Event) (cs : List (Event × Bool)) : KeepsQueues s (s.raise ps cs) := by
  have hraised : KeepsQueues s (s.setNtu (s.ntu.raised ps cs)) := .of_same rfl rfl
  rcases s.raise_cases ps cs with ⟨_, h⟩ | ⟨_, h⟩ <;> rw [h]
  · exact hraised
  · exact hraised.trans (.judge _)

/-- A raising at a state that differs from `s` outside the queues. -/
theorem KeepsQueues.raise_at {s u : State} (hl : u.lki.north = s.lki.north) (hr : u.rqh.held = s.rqh.held) (ps : List Event)
    (cs : List (Event × Bool)) : KeepsQueues s (u.raise ps cs) :=
  (KeepsQueues.of_same hl hr).trans (.raise u ps cs)

/-! ### LMC -/

theorem KeepsQueues.lmcEnd (s : State) (m : Lmc) (ps : List Event) : KeepsQueues s (s.lmcEnd m ps) :=
  .raise_at (s := s) (u := s.setLmc m) rfl rfl ps _

theorem KeepsQueues.lmcCut (s : State) (m : Lmc) (c : Nat) : KeepsQueues s (s.lmcCut m c) := by
  unfold State.lmcCut
  split <;> exact .lmcEnd s _ _

theorem KeepsQueues.deliverRegime (s : State) (r : Regime) : KeepsQueues s (s.deliverRegime r) := by
  refine KeepsQueues.trans (u := s.setPpc { s.ppc with regime := r }) (.of_same rfl rfl) ?_
  unfold State.deliverRegime
  dsimp only
  split
  · exact .lmcCut _ _ _
  · exact .lmcEnd _ _ _

theorem KeepsQueues.lightSample (s : State) (r : LightRole) (b : List Byte) : KeepsQueues s (s.lightSample r b) := by
  unfold State.lightSample
  split <;> exact .lmcEnd s _ _

/-! ### PPC -/

theorem KeepsQueues.ppcQuiet (s : State) (p : Ppc) (ps : List Event) : KeepsQueues s (s.ppcQuiet p ps) :=
  .raise_at (s := s) (u := s.setPpc p) rfl rfl ps _

theorem KeepsQueues.ppcSettle (s : State) (p : Ppc) (ps : List Event) : KeepsQueues s (s.ppcSettle p ps) := by
  rcases s.ppcSettle_cases p ps with h | h <;> rw [h]
  · exact .ppcQuiet s _ _
  · exact (KeepsQueues.ppcQuiet s _ _).trans (.lmcCut _ _ _)

theorem KeepsQueues.ppcEnd (s : State) (p : Ppc) (ps : List Event) : KeepsQueues s (s.ppcEnd p ps) := by
  unfold State.ppcEnd
  split
  · exact .ppcQuiet s p ps
  · exact .ppcSettle s p ps

theorem KeepsQueues.gaugeTap (s : State) (x : Slot) (b : List Byte) : KeepsQueues s (s.gaugeTap x b) := by
  unfold State.gaugeTap
  dsimp only
  split
  · exact .ppcSettle s _ _
  · exact .ppcEnd s _ _

theorem KeepsQueues.bridgeTap (s : State) (b : List Byte) : KeepsQueues s (s.bridgeTap b) := by
  unfold State.bridgeTap
  dsimp only
  split
  · exact .refl s
  · split
    · exact .ppcSettle s _ _
    · exact .ppcQuiet s _ _

/-! ### MTM -/

theorem KeepsQueues.deliverPhase (s : State) (old new : Phase) : KeepsQueues s (s.deliverPhase old new) := by
  have hcopy : ∀ u : State, KeepsQueues u (u.setRqh { u.rqh with phaseCopy := new }) := fun _ => .of_same rfl rfl
  unfold State.deliverPhase
  dsimp only
  split
  · exact .refl s
  · refine KeepsQueues.trans ?_ (hcopy _)
    split
    · exact KeepsQueues.trans (u := s.braceOn) (.ppcEnd s _ _) (.of_same (by simp) (by simp))
    · split
      · exact KeepsQueues.trans (u := s.braceOff) (.ppcEnd s _ _) ((KeepsQueues.lmcEnd _ _ _).trans (.of_same rfl rfl))
      · exact .refl s

theorem KeepsQueues.mtmEnd (s : State) (r : Motion) : KeepsQueues s (s.mtmEnd r) :=
  (KeepsQueues.raise_at (s := s) (u := s.setMtm r.mtm) rfl rfl _ _).trans (.deliverPhase _ _ _)

/-! ### The tap -/

theorem KeepsQueues.tapDeliver (s : State) (r : TapRole) (i : Nat) (x : Sample) : KeepsQueues s (s.tapDeliver r i x) := by
  unfold State.tapDeliver
  split
  · exact .refl s
  · split
    · exact .raise s _ _
    · cases r with
      | noTap => exact .refl s
      | accel => exact .mtmEnd s _
      | lightFront | lightTop => exact .lightSample s _ _
      | gaugeA | gaugeB => exact .gaugeTap s _ _
      | bridge => exact .bridgeTap s _

/-! ### NTU -/

theorem KeepsQueues.endHoldOff (s : State) : KeepsQueues s s.endHoldOff :=
  KeepsQueues.trans (u := s.setNtu { s.ntu with holdOff := none }) (.of_same rfl rfl) (.judge _)

theorem KeepsQueues.holdNotices (s : State) (d : Nat) : KeepsQueues s (s.holdNotices d) := by
  unfold State.holdNotices
  split
  · split
    · exact .refl s
    · exact .of_same rfl rfl
  · split
    · exact .endHoldOff s
    · split
      · exact .of_same rfl rfl
      · exact .refl s

end Sys2Proof.Machine
end

section
/-! Every step keeps the queues of the link sound (R150 to R152, R154, R159, R160, R166, R167): the samples, the frames of the
uplink, the requests, the resets, and the commands as a whole. -/

namespace Sys2Proof.Machine

/-! ### Samples -/

theorem KeepsQueues.editEntry (s : State) (i : Nat) (g : RouteEntry → RouteEntry) : KeepsQueues s (s.editEntry i g) :=
  .of_same rfl rfl

/-- A sample is placed only where the queue has room (R3). -/
theorem State.offer_queuesSound {s : State} (h : s.queuesSound) (i : Nat) (x : Sample) : (s.offer i x).queuesSound := by
  unfold State.offer
  split
  · next hroom => exact State.placeSample_queuesSound ((KeepsQueues.editEntry s i _).sound h) hroom x
  · exact (KeepsQueues.raise _ _ _).sound ((KeepsQueues.editEntry s i _).sound h)

theorem State.northbound_queuesSound {s : State} (h : s.queuesSound) (i : Nat) (e : RouteEntry) (x : Sample) :
    (s.northbound i e x).queuesSound := by
  have hedit : ∀ {u : State} (g : RouteEntry → RouteEntry), u.queuesSound → (u.editEntry i g).queuesSound :=
    fun g => (KeepsQueues.editEntry _ i g).sound
  unfold State.northbound
  split
  · exact State.offer_queuesSound h i x
  · exact hedit _ h
  · split
    · exact hedit _ (State.offer_queuesSound h i x)
    · exact hedit _ (hedit _ h)

theorem State.unmatchedSample_queuesSound {s : State} (h : s.queuesSound) (x : Sample) : (s.unmatchedSample x).queuesSound := by
  have hcounted : KeepsQueues s (s.setSrt { s.srt with unmatched := satInc s.srt.unmatched }) := .of_same rfl rfl
  unfold State.unmatchedSample
  dsimp only
  split
  · exact hcounted.sound h
  · split
    · next hroom => exact State.placeSample_queuesSound h hroom x
    · exact (hcounted.trans (.raise _ _ _)).sound h

theorem State.routeSample_queuesSound {s : State} (h : s.queuesSound) (x : Sample) : (s.routeSample x).queuesSound := by
  unfold State.routeSample
  split
  · exact State.unmatchedSample_queuesSound h x
  · split
    · exact State.unmatchedSample_queuesSound h x
    · exact (KeepsQueues.tapDeliver _ _ _ _).sound (State.northbound_queuesSound h _ _ x)

/-! ### The uplink -/

theorem KeepsQueues.linkError (s : State) : KeepsQueues s s.linkError :=
  .raise_at (s := s) (u := s.setLki { s.lki with linkErrors := satInc s.lki.linkErrors }) rfl rfl _ _

theorem KeepsQueues.attend (s : State) : KeepsQueues s s.attend := by
  unfold State.attend
  split
  · exact KeepsQueues.trans (u := s.setLki { s.lki with regime := .attended }) (.of_same rfl rfl) (.deliverRegime _ _)
  · exact .refl s

/-- A valid frame before its admission (R165). -/
theorem KeepsQueues.heard (s : State) : KeepsQueues s s.heard :=
  KeepsQueues.trans (u := s.setLki s.lki.heard) (.of_same rfl rfl) (.attend _)

/-- A request enters a queue, or its tag the busy list, only where there is room (R150). -/
theorem State.admitRequest_queuesSound {s : State} (h : s.queuesSound) (r : Request) : (s.admitRequest r).queuesSound := by
  obtain ⟨hplaces, _, _⟩ := s.queuesSound_iff.1 h
  rcases Nat.lt_or_ge s.rqh.queue.length 8 with hroom | hfull
  · rw [State.admitRequest_room hroom]
    refine State.pump_queuesSound ⟨?_, hplaces.replies, hplaces.busy, hplaces.samples, hplaces.room⟩
    rw [State.setRqh_rqh, List.length_append]
    exact hroom
  · rcases Nat.lt_or_ge s.lki.busyCount 8 with hbusy | hbusy
    · rw [State.admitRequest_busy hfull hbusy]
      have hcount : (s.lki.place (.busy r.tag)).replyCount = s.lki.replyCount := Lki.place_replyCount _ _
      refine State.pump_queuesSound ⟨hplaces.requests, hcount.le.trans hplaces.replies, ?_, hplaces.samples,
        fun hp => hcount.trans_lt (hplaces.room hp)⟩
      rw [State.setLki_lki, Lki.place_busyCount]
      exact hbusy
    · rw [State.admitRequest_full hfull hbusy]
      exact (KeepsQueues.linkError s).sound h

theorem State.receiveUplink_queuesSound {s : State} (h : s.queuesSound) (f : WireFrame) : (s.receiveUplink f).queuesSound := by
  cases hf : uplinkValid f with
  | true =>
    have hheard : s.receiveUplink f = s.heard.admitRequest (requestOf f.body) := Host.Outcome.next.inj (exec_validFrame s hf)
    rw [hheard]
    exact State.admitRequest_queuesSound ((KeepsQueues.heard s).sound h) _
  | false =>
    have hhunts : KeepsQueues s (s.setLki { s.lki with rx := .hunting }) := .of_same rfl rfl
    have hbad : s.receiveUplink f = (s.setLki { s.lki with rx := .hunting }).linkError := if_neg (by simp [hf])
    rw [hbad]
    exact (hhunts.trans (.linkError _)).sound h

/-- The end of a transmission: the transmitter takes the next frame (R166). -/
theorem State.transmitted_queuesSound {s : State} (h : s.queuesSound) :
    (s.setLki { s.lki with sending := none }).pump.queuesSound := by
  obtain ⟨⟨hrequests, hreplies, hbusy, hsamples, hroom⟩, _, _⟩ := s.queuesSound_iff.1 h
  exact State.pump_queuesSound ⟨hrequests, hreplies, hbusy, hsamples, hroom⟩

/-! ### The owners -/

/-- The owner's event keeps the request in progress and leaves the queues sound. -/
def OwnerKeepsQueues (owner : List Byte → State → Answer) : Prop := ∀ a s, KeepsQueues s (owner a s).state

/-- The request in progress is answered by its checks or by its owner (R153, R154). -/
theorem OwnerKeepsQueues.serve {owner : List Byte → State → Answer} (ho : OwnerKeepsQueues owner) {s : State}
    (h : s.queuesSound) (c : RequestCode) : (s.serve c owner).queuesSound := by
  rcases s.serve_cases c owner with ht | ⟨r, hr, _, ht | ht | ht⟩ <;> rw [ht]
  · exact h
  · exact State.answer_queuesSound h (by rw [hr]; rfl) _ _ _
  · exact State.answer_queuesSound h (by rw [hr]; rfl) _ _ _
  · have howner := ho r.args s
    exact State.answer_queuesSound (howner.sound h) (by rw [howner.inProgress, hr]; rfl) _ _ _

theorem KeepsQueues.collide (s : State) (hit : Bool) : KeepsQueues s (s.collide hit) := by
  cases hit
  · exact .refl s
  · rw [State.collide_true]
    exact .raise_at (s := s) (u := s.setSrt { s.srt with overrideEntry := none }) rfl rfl _ _

theorem routeWriteOwner_keepsQueues : OwnerKeepsQueues routeWriteOwner := fun a s => by
  have hset : ∀ r, KeepsQueues s (s.setSrt r) := fun _ => .of_same rfl rfl
  unfold routeWriteOwner
  dsimp only
  split
  · exact .refl s
  · split
    · exact .refl s
    · exact (hset _).trans (.collide _ _)

theorem routeFlushOwner_keepsQueues : OwnerKeepsQueues routeFlushOwner := fun a s => by
  have hset : ∀ r, KeepsQueues s (s.setSrt r) := fun _ => .of_same rfl rfl
  rw [routeFlushOwner_eq]
  exact (hset _).trans (.collide _ _)

theorem countSnapshotOwner_keepsQueues : OwnerKeepsQueues countSnapshotOwner := fun a s => by
  unfold countSnapshotOwner
  dsimp only [Answer.ok]
  split <;> exact .of_same rfl rfl

theorem routeReadOwner_keepsQueues : OwnerKeepsQueues routeReadOwner := fun a s => by
  unfold routeReadOwner
  dsimp only
  split <;> exact .refl s

theorem countReadOwner_keepsQueues : OwnerKeepsQueues countReadOwner := fun a s => by
  unfold countReadOwner
  dsimp only
  split
  · exact .refl s
  · split <;> exact .refl s

theorem passOwner_keepsQueues : OwnerKeepsQueues passOwner := fun a s => by
  unfold passOwner
  dsimp only
  split
  · exact .refl s
  · split
    · exact .refl s
    · split
      · exact .refl s
      · unfold State.offerPort
        split
        · exact .refl s
        · exact .of_same rfl rfl

theorem packProfileOwner_keepsQueues : OwnerKeepsQueues packProfileOwner := fun a s => by
  unfold packProfileOwner
  dsimp only
  split
  · exact .ppcSettle s _ _
  · exact .refl s

theorem packStatusOwner_keepsQueues : OwnerKeepsQueues packStatusOwner := fun a s => by
  unfold packStatusOwner
  split <;> exact .refl s

theorem packReleaseOwner_keepsQueues : OwnerKeepsQueues packReleaseOwner := fun a s => by
  unfold packReleaseOwner
  split
  · exact .refl s
  · dsimp only
    split
    · exact .refl s
    · exact .ppcEnd s _ _
    · exact .ppcEnd s _ _

theorem powerSetOwner_keepsQueues : OwnerKeepsQueues powerSetOwner := fun a s => by
  unfold powerSetOwner
  dsimp only
  split
  · exact .refl s
  · exact .ppcSettle s _ _

theorem bridgeSetOwner_keepsQueues : OwnerKeepsQueues bridgeSetOwner := fun a s => by
  unfold bridgeSetOwner
  dsimp only
  split
  · exact .refl s
  · exact .ppcSettle s _ _

theorem KeepsQueues.deliverPBlMax (s : State) (v : Nat) : KeepsQueues s (s.deliverPBlMax v) := by
  unfold State.deliverPBlMax
  split
  · exact .refl s
  · exact .ppcSettle s _ _

theorem lightSetOwner_keepsQueues : OwnerKeepsQueues lightSetOwner := fun a s => by
  have hset : ∀ m, KeepsQueues s (s.setLmc m) := fun _ => .of_same rfl rfl
  unfold lightSetOwner
  dsimp only
  split
  · exact (hset _).trans (.deliverPBlMax _ _)
  · exact .refl s

theorem curveHeaderOwner_keepsQueues : OwnerKeepsQueues curveHeaderOwner := fun a s => by
  unfold curveHeaderOwner
  dsimp only
  split
  · exact .refl s
  · exact .lmcEnd s _ _

theorem curvePointOwner_keepsQueues : OwnerKeepsQueues curvePointOwner := fun a s => by
  unfold curvePointOwner
  dsimp only
  split
  · exact .refl s
  · exact .lmcEnd s _ _

theorem blReleaseOwner_keepsQueues : OwnerKeepsQueues blReleaseOwner := fun a s => by
  unfold blReleaseOwner
  split
  · exact .lmcEnd s _ _
  · exact .refl s

theorem motionSetOwner_keepsQueues : OwnerKeepsQueues motionSetOwner := fun a s => by
  unfold motionSetOwner
  dsimp only
  split
  · exact .of_same rfl rfl
  · exact .refl s

theorem dropReadOwner_keepsQueues : OwnerKeepsQueues dropReadOwner := fun a s => by
  unfold dropReadOwner
  split <;> exact .refl s

theorem dropReleaseOwner_keepsQueues : OwnerKeepsQueues dropReleaseOwner := fun a s => by
  unfold dropReleaseOwner
  split
  · exact .refl s
  · split
    · exact .refl s
    · exact .of_same rfl rfl

theorem eventConfigOwner_keepsQueues : OwnerKeepsQueues eventConfigOwner := fun a s => by
  have hset : ∀ n, KeepsQueues s (s.setNtu n) := fun _ => .of_same rfl rfl
  unfold eventConfigOwner
  dsimp only
  split
  · exact .refl s
  · split
    · exact .refl s
    · split
      · exact .refl s
      · split
        · exact .refl s
        · exact (hset _).trans (.judge _)

theorem noticeEnableOwner_keepsQueues : OwnerKeepsQueues noticeEnableOwner := fun a s => by
  have hset : ∀ n, KeepsQueues s (s.setNtu n) := fun _ => .of_same rfl rfl
  unfold noticeEnableOwner
  dsimp only
  split
  · exact .refl s
  · dsimp only [Answer.ok]
    split
    · exact (hset _).trans (.judge _)
    · exact hset _

/-- RESTART empties the queues but the reply stream, and its settlement raises events (R159, R160). -/
theorem KeepsQueues.restarted (s : State) : KeepsQueues s s.restarted := by
  have hcleared : KeepsQueues s s.cleared := by
    refine ⟨rfl, fun h => ?_⟩
    obtain ⟨hplaces, hidle, _⟩ := s.queuesSound_iff.1 h
    refine s.cleared.queuesSound_iff.2 ⟨⟨Nat.zero_le _, hplaces.replies, hplaces.busy, Nat.zero_le _, hplaces.room⟩,
      fun hs => ?_, fun _ r rest hq => nomatch hq⟩
    obtain ⟨_, hstream, _⟩ := hidle hs
    exact ⟨rfl, hstream, rfl⟩
  rw [s.restarted_eq]
  exact hcleared.trans (.ppcSettle _ _ _)

theorem restartOwner_keepsQueues : OwnerKeepsQueues restartOwner := fun a s => by
  unfold restartOwner
  split
  · exact .restarted s
  · exact .refl s

theorem RequestCode.owner_keepsQueues (c : RequestCode) : OwnerKeepsQueues c.owner := by
  cases c with
  | identify | linkStatus | powerStatus | curveRead | blStatus | motionStatus => exact fun _ s => .refl s
  | linkSet | eventReadClear => exact fun _ _ => .of_same rfl rfl
  | routeWrite => exact routeWriteOwner_keepsQueues
  | routeRead => exact routeReadOwner_keepsQueues
  | routeFlush => exact routeFlushOwner_keepsQueues
  | countSnapshot => exact countSnapshotOwner_keepsQueues
  | countRead => exact countReadOwner_keepsQueues
  | pass => exact passOwner_keepsQueues
  | packProfileWrite => exact packProfileOwner_keepsQueues
  | packStatus => exact packStatusOwner_keepsQueues
  | packRelease => exact packReleaseOwner_keepsQueues
  | powerSet => exact powerSetOwner_keepsQueues
  | bridgeSet => exact bridgeSetOwner_keepsQueues
  | lightSet => exact lightSetOwner_keepsQueues
  | curveWriteHeader => exact curveHeaderOwner_keepsQueues
  | curveWritePoint => exact curvePointOwner_keepsQueues
  | blBias | blForce => exact fun _ s => .lmcEnd s _ _
  | blRelease => exact blReleaseOwner_keepsQueues
  | motionSet => exact motionSetOwner_keepsQueues
  | dropRead => exact dropReadOwner_keepsQueues
  | dropRelease => exact dropReleaseOwner_keepsQueues
  | eventConfig => exact eventConfigOwner_keepsQueues
  | noticeEnable => exact noticeEnableOwner_keepsQueues
  | holdNotices => exact fun _ s => .holdNotices s _
  | restart => exact restartOwner_keepsQueues

/-! ### Field ports -/

theorem State.finishRestart_queuesSound {s : State} (h : s.queuesSound) : s.finishRestart.queuesSound := by
  unfold State.finishRestart
  split
  · exact restartOwner_keepsQueues.serve h _
  · exact h

theorem KeepsQueues.editPort (s : State) (p : PortId) (g : FieldPort → FieldPort) : KeepsQueues s (s.editPort p g) :=
  .of_same rfl rfl

theorem State.receivePort_queuesSound {s : State} (h : s.queuesSound) (p : PortId) (f : WireFrame) :
    (s.receivePort p f).queuesSound := by
  unfold State.receivePort
  split
  · exact State.routeSample_queuesSound ((KeepsQueues.editPort _ p _).sound (State.finishRestart_queuesSound h)) _
  · exact (KeepsQueues.editPort s p _).sound h

/-! ### Every command -/

/-- Power-on reset empties every queue, and its settlement raises events (R46, R163). -/
theorem State.powerOn_queuesSound (pins : Pins) (pending : List Instr) : (State.powerOn pins pending).queuesSound := by
  obtain ⟨_, _, _, _, _, _, hreset, _⟩ := resetIsSafe
  have hpre : (State.preSettled pins pending).queuesSound := (State.queuesSound_congr (s := State.reset) rfl rfl).2 hreset
  rw [State.powerOn_def]
  exact (KeepsQueues.ppcSettle _ _ _).sound hpre

/-- The request that a row carries out. -/
def rowRequest (i : Instr) : Option RequestCode := RequestCode.all.find? fun c => c.row == i

theorem row_of_rowRequest {i : Instr} {c : RequestCode} (h : rowRequest i = some c) : c.row = i :=
  beq_iff_eq.1 (List.find?_some (p := fun c : RequestCode => c.row == i) h)

/-- Every command keeps the queues sound: a request row through its owner, a frame, a sample or the end of a transmission by its
takings and placings, a reset anew, and any other command as a link that touches no queue. -/
theorem exec_queuesSound {i : Instr} {s t : State} (h : s.queuesSound) (hx : exec i s = .next t) : t.queuesSound := by
  have hlink : ∀ {u : State}, KeepsQueues s u → u.queuesSound := fun hu => hu.sound h
  cases hc : rowRequest i with
  | some c =>
    obtain rfl := row_of_rowRequest hc
    rw [exec_row] at hx
    exact Host.Outcome.next.inj hx ▸ c.owner_keepsQueues.serve h c
  | none =>
    cases i with
    | powerOnReset pins => exact Host.Outcome.next.inj hx ▸ State.powerOn_queuesSound pins _
    | requestFrameReceived f | uplinkFrameDiscarded f => exact Host.Outcome.next.inj hx ▸ State.receiveUplink_queuesSound h f
    | sampleFrameReceived p f | badSampleFrame p f => exact Host.Outcome.next.inj hx ▸ State.receivePort_queuesSound h p f
    | uplinkFrameStart | portFrameStart _ | passSendComplete _ | stepExpiry =>
      exact Host.Outcome.next.inj hx ▸ hlink (.of_same rfl rfl)
    | uplinkByteGap =>
      obtain rfl := Host.Outcome.next.inj hx
      split
      · exact hlink (KeepsQueues.trans (u := s.setLki { s.lki with rx := .hunting }) (.of_same rfl rfl) (.linkError _))
      · exact h
    | portByteGap p =>
      obtain rfl := Host.Outcome.next.inj hx
      split
      · exact hlink (.editPort s p _)
      · exact h
    | transmitComplete =>
      obtain rfl := Host.Outcome.next.inj hx
      split
      · exact State.transmitted_queuesSound h
      · exact h
    | holdOffExpiry =>
      obtain rfl := Host.Outcome.next.inj hx
      split
      · exact hlink (.endHoldOff s)
      · exact h
    | lightStaleExpiry r =>
      obtain rfl := Host.Outcome.next.inj hx
      split
      · exact hlink (.lmcEnd s _ _)
      · exact h
    | silenceTimeoutExpiry =>
      obtain rfl := Host.Outcome.next.inj hx
      split
      · exact hlink (KeepsQueues.trans (u := s.setLki { s.lki with silenceTimer := none, regime := .unattended })
          (.of_same rfl rfl) (.deliverRegime _ _))
      · exact h
    | rawInputChange pin _ =>
      obtain rfl := Host.Outcome.next.inj hx
      cases pin <;> exact hlink (.of_same rfl rfl)
    | leverRelease _ =>
      obtain rfl := Host.Outcome.next.inj hx
      split
      · exact hlink (.of_same rfl rfl)
      · exact h
    | seating _ | leverPress _ =>
      obtain rfl := Host.Outcome.next.inj hx
      split
      · exact h
      · exact hlink (.ppcEnd s _ _)
    | presenceLoss x =>
      obtain rfl := Host.Outcome.next.inj hx
      have hreport : ∀ u : State, KeepsQueues u (u.reportDislodged x) := fun _ => .of_same rfl rfl
      split
      · exact h
      · dsimp only
        split
        · exact hlink ((KeepsQueues.ppcEnd s _ _).trans (hreport _))
        · exact hlink (.ppcEnd s _ _)
    | dcinOkChange _ | brPresChange _ =>
      obtain rfl := Host.Outcome.next.inj hx
      split
      · exact h
      · exact hlink (.ppcSettle s _ _)
    | qualTimeoutExpiry _ | releaseConfirmExpiry _ | unlockHoldExpiry _ | transferSettleExpiry =>
      obtain rfl := Host.Outcome.next.inj hx
      split
      · exact hlink (.ppcEnd s _ _)
      · exact h
    | gaugeStaleExpiry _ =>
      obtain rfl := Host.Outcome.next.inj hx
      split
      · exact h
      · split
        · exact hlink (.ppcSettle s _ _)
        · exact hlink (.ppcQuiet s _ _)
    | swapWindowExpiry =>
      obtain rfl := Host.Outcome.next.inj hx
      split
      · exact hlink (.ppcSettle s _ _)
      · exact h
    | accelStaleExpiry | protectHoldExpiry =>
      obtain rfl := Host.Outcome.next.inj hx
      split
      · exact hlink (.mtmEnd s _)
      · exact h
    | unknownRequest =>
      obtain rfl := Host.Outcome.next.inj hx
      split
      · next r hr =>
        split
        · exact State.answer_queuesSound h (by rw [hr]; rfl) _ _ _
        · exact h
      · exact h
    | _ => exact absurd hc (by decide)

/-- Settles O10: what touches no queue keeps them sound (`KeepsQueues`), a placing finds room, and after each placing the
transmitter and RQH take what they may (`State.pump_queuesSound`). -/
theorem queuesStaySound : Obligations.QueuesStaySound := by
  unfold Obligations.QueuesStaySound
  intro s t h hstep
  unfold step at hstep
  split at hstep
  · next c rest _ =>
    have hrest : KeepsQueues s (s.setPending rest) := .of_same rfl rfl
    exact exec_queuesSound (hrest.sound h) hstep
  · split at hstep
    · exact exec_queuesSound h hstep
    · have htick : KeepsQueues s s.tick := .of_same rfl rfl
      exact Host.Outcome.next.inj hstep ▸ htick.sound h

end Sys2Proof.Machine
end

section
/-! The errors of the link and the port events that change one port alone (R164, R169, R170). -/

namespace Sys2Proof.Machine

/-! ### A link error -/

theorem State.raised_sameNotified (s : State) (ps : List Event) (cs : List (Event × Bool)) :
    s.ntu.sameNotified (s.ntu.raised ps cs) := by
  intro k
  rw [State.raised_entry, Option.map_map]
  rfl

/-- An occurrence is judged once, with the NOTICE of R141. -/
theorem State.raise_noticed {s : State} {ps : List Event} {cs : List (Event × Bool)} (h : s.raisedCodes ps cs ≠ []) :
    Noticed s (s.raise ps cs) := by
  rcases s.raise_cases ps cs with ⟨hnone, _⟩ | ⟨_, hraise⟩
  · exact absurd hnone h
  · rw [hraise]
    exact State.judge_noticed (s.raised_sameNotified ps cs)

section
variable (s : State)

theorem State.linkError_noticed : Noticed s s.linkError :=
  State.raise_noticed (s := s.setLki { s.lki with linkErrors := satInc s.lki.linkErrors }) (List.cons_ne_nil _ _)

theorem State.linkError_occurred (h : s.ntu.table.length = 32) : Occurred s s.linkError .linkError :=
  Told.occurred_of_pulse (s.setLki { s.lki with linkErrors := satInc s.lki.linkErrors }) [] (.of_same rfl rfl rfl) h
    (List.mem_singleton_self _) (.refl _)

/-- Of LKI the count changes, and what the NOTICE changes (R141, R164). -/
theorem State.linkError_onlyNotice :
    ({ s.lki with linkErrors := satInc s.lki.linkErrors } : Lki).onlyNotice s.linkError.lki :=
  State.raise_onlyNotice (s.setLki { s.lki with linkErrors := satInc s.lki.linkErrors }) [.linkError] []

end

/-- The receiver of the uplink hunts again (R164). -/
def State.uplinkHunts (s : State) : State := s.setLki { s.lki with rx := .hunting }

/-- A frame that fails a check of the uplink and a gap inside a frame are one event: the receiver hunts, and a link error is
counted (R164). -/
theorem exec_badUplink {i : Instr} {s : State}
    (h : (∃ f, i = .uplinkFrameDiscarded f ∧ uplinkValid f = false) ∨ i = .uplinkByteGap ∧ s.lki.rx = .inFrame) :
    exec i s = .next s.uplinkHunts.linkError := by
  rcases h with ⟨f, rfl, hbad⟩ | ⟨rfl, hframe⟩
  · exact congrArg Host.Outcome.next (if_neg (Bool.eq_false_iff.1 hbad))
  · exact congrArg Host.Outcome.next (if_pos hframe)

/-! ### One port -/

theorem State.editPort_onlyPort (s : State) (p : PortId) (g : FieldPort → FieldPort) : OnlyPort s (s.editPort p g) p g :=
  ⟨FieldPorts.get_set _ p _, fun q hq => FieldPorts.get_set_ne _ p q _ hq, rfl⟩

/-- A frame that fails a check of its port is discarded, with a RESTART in progress too (R169). -/
theorem State.receivePort_bad (s : State) (p : PortId) {f : WireFrame} (h : portFrameGood f = false) :
    s.receivePort p f = s.portError p := if_neg (Bool.eq_false_iff.1 h)

/-- Settles O15: an uplink error is `State.linkError` on a receiver that hunts, and an event of a port is `State.editPort`. -/
theorem frameErrorsAreCounted : Obligations.FrameErrorsAreCounted := by
  unfold Obligations.FrameErrorsAreCounted
  refine ⟨fun i s hlen hbad => ?uplink, fun p s => ⟨rfl, ?start, ?sent, fun f hbad => ?bad, fun hframe => ?gap⟩⟩
  case uplink =>
    refine ⟨_, exec_badUplink hbad, ?_⟩
    exact ⟨s.uplinkHunts.linkError_occurred hlen, s.uplinkHunts.linkError_onlyEvents, s.uplinkHunts.linkError_noticed,
      s.uplinkHunts.linkError_onlyNotice, s.uplinkHunts.linkError_srt, s.uplinkHunts.linkError_rqh,
      s.uplinkHunts.linkError_ppc, s.uplinkHunts.linkError_lmc, s.uplinkHunts.linkError_mtm,
      s.uplinkHunts.linkError_pending⟩
  case start => exact ⟨_, rfl, s.editPort_onlyPort p _⟩
  case sent => exact ⟨_, rfl, s.editPort_onlyPort p _⟩
  case bad => exact ⟨_, congrArg Host.Outcome.next (s.receivePort_bad p hbad), s.editPort_onlyPort p _⟩
  case gap => exact ⟨_, congrArg Host.Outcome.next (if_pos hframe), s.editPort_onlyPort p _⟩

end Sys2Proof.Machine
end

section
/-! The layouts of the settings requests (R172): the two that no echo gives unclamped, and all five together. -/

namespace Sys2Proof.Machine

theorem PowerSettings.bytes_ofArgs {a : List Byte} (h : a.length = 8) : (PowerSettings.ofArgs a).bytes = a := by
  unfold PowerSettings.bytes PowerSettings.ofArgs
  simp (disch := omega) only [le16_field, le32_field]
  simp only [List.drop_zero, ← List.take_add, Nat.reduceAdd]
  exact List.take_of_length_le h.le

/-- The light settings follow the two gain tables of 16 bytes without a gap. -/
theorem LightSettings.take_append_bytes_ofArgs {a : List Byte} (h : a.length = 32) :
    a.take 16 ++ (LightSettings.ofArgs a).bytes = a := by
  unfold LightSettings.bytes LightSettings.ofArgs
  simp (disch := omega) only [b8_field, le16_field]
  simp only [← List.append_assoc, ← List.take_add, Nat.reduceAdd]
  exact List.take_of_length_le h.le

/-- Settles O60: in each layout the fields follow each other without a gap, and each is read and written by the same bytes. -/
theorem settingsRoundTrip : Obligations.SettingsRoundTrip := by
  unfold Obligations.SettingsRoundTrip
  intro a
  refine ⟨PackProfile.bytes_ofArgs, PowerSettings.bytes_ofArgs, BridgeSettings.bytes_ofArgs, MotionSettings.bytes_ofArgs,
    fun h => ?light⟩
  case light => rw [gains_echo h, LightSettings.take_append_bytes_ofArgs h]

end Sys2Proof.Machine
end

section
/-! The machine as a whole: a step takes the command at the front of the queue, and every command answers a next state with the
queue as it was. -/

namespace Sys2Proof.Machine

/-! ### The front command -/

/-- A step takes the command at the front off the queue and runs it. -/
theorem step_front {s : State} {c : Instr} {rest : List Instr} (hp : s.pending = c :: rest) :
    step s = exec c (s.setPending rest) := by
  simp only [step, hp]

/-- A queue put in place of another is the last one that counts. -/
@[simp] theorem State.setPending_setPending (s : State) (x y : List Instr) :
    (s.setPending x).setPending y = s.setPending y := rfl

@[simp] theorem State.setPending_self (s : State) : s.setPending s.pending = s := rfl

/-- Settles O1: the command put at the front is taken off again, and what is left is the state itself. -/
theorem stepRunsTheFrontCommand : Obligations.StepRunsTheFrontCommand := by
  unfold Obligations.StepRunsTheFrontCommand
  intro c s
  rw [step_front (s.setPending_pending _), State.setPending_setPending, State.setPending_self]

/-! ### The queue under a request -/

theorem State.restarted_pending (s : State) : s.restarted.pending = s.pending := by
  rw [State.restarted_eq, State.ppcSettle_pending]
  rfl

theorem State.offerPort_pending (s : State) (p : PortId) (dest : Byte) (payload : List Byte) :
    (s.offerPort p dest payload).state.pending = s.pending := by
  unfold State.offerPort
  split <;> rfl

/-- No owner touches the queue of commands, whichever of its checks decides. -/
theorem RequestCode.owner_pending (c : RequestCode) (a : List Byte) (s : State) : (c.owner a s).state.pending = s.pending := by
  cases c with
  | identify | linkSet | linkStatus | powerStatus | curveRead | blStatus | motionStatus | eventReadClear => rfl
  | holdNotices => exact s.holdNotices_pending _
  | blBias | blForce => exact s.lmcEnd_pending _ _
  | routeFlush => exact State.collide_pending _ _
  | restart =>
    dsimp only [RequestCode.owner, restartOwner]
    split
    · exact s.restarted_pending
    · rfl
  | routeRead | countSnapshot | packProfileWrite | packStatus | powerSet | bridgeSet | lightSet | curveWriteHeader
  | curveWritePoint | blRelease | motionSet | dropRead =>
    dsimp only [RequestCode.owner, routeReadOwner, countSnapshotOwner, packProfileOwner, packStatusOwner, powerSetOwner,
      bridgeSetOwner, lightSetOwner, curveHeaderOwner, curvePointOwner, blReleaseOwner, motionSetOwner, dropReadOwner]
    split <;> simp
  | routeWrite | countRead | pass | packRelease | dropRelease | eventConfig | noticeEnable =>
    dsimp only [RequestCode.owner, routeWriteOwner, countReadOwner, passOwner, packReleaseOwner, dropReleaseOwner,
      eventConfigOwner, noticeEnableOwner]
    repeat' split
    all_goals simp [State.offerPort_pending]

/-- The event of a request keeps the queue: its reply is placed on the link, and its owner leaves the queue alone. -/
theorem State.serve_pending (s : State) (c : RequestCode) : (s.serve c c.owner).pending = s.pending := by
  rcases s.serve_cases c c.owner with ht | ⟨r, _, _, ht | ht | ht⟩ <;> rw [ht]
  · exact s.answer_pending _ _ _
  · exact s.answer_pending _ _ _
  · rw [State.answer_pending, c.owner_pending]

/-! ### Every command -/

/-- The dispatch has no arm that faults or refuses. -/
theorem exec_completes (c : Instr) (s : State) : ∃ t, exec c s = .next t := by
  cases c <;> exact ⟨_, rfl⟩

/-- Power-on reset starts the part anew and keeps the queue, which is not the part's (R46). -/
theorem State.powerOn_pending (pins : Pins) (pending : List Instr) : (State.powerOn pins pending).pending = pending := by
  rw [State.powerOn_def, State.ppcSettle_pending]
  rfl

/-- No command touches the queue: a request row by its owner, and any other command by the updates its event is made of. -/
theorem exec_pending {i : Instr} {s t : State} (hx : exec i s = .next t) : t.pending = s.pending := by
  cases hc : rowRequest i with
  | some c =>
    obtain rfl := row_of_rowRequest hc
    rw [exec_row] at hx
    exact Host.Outcome.next.inj hx ▸ s.serve_pending c
  | none =>
    cases i with
    | powerOnReset pins => exact Host.Outcome.next.inj hx ▸ State.powerOn_pending pins _
    | requestFrameReceived f | uplinkFrameDiscarded f => exact Host.Outcome.next.inj hx ▸ s.receiveUplink_pending f
    | sampleFrameReceived p f | badSampleFrame p f => exact Host.Outcome.next.inj hx ▸ s.receivePort_pending p f
    | uplinkFrameStart | portFrameStart _ | passSendComplete _ | stepExpiry => exact Host.Outcome.next.inj hx ▸ rfl
    | rawInputChange pin _ =>
      obtain rfl := Host.Outcome.next.inj hx
      cases pin <;> rfl
    | uplinkByteGap | portByteGap _ | transmitComplete | silenceTimeoutExpiry | seating _ | leverPress _ | leverRelease _
    | dcinOkChange _ | brPresChange _ | qualTimeoutExpiry _ | releaseConfirmExpiry _ | unlockHoldExpiry _
    | transferSettleExpiry | swapWindowExpiry | lightStaleExpiry _ | accelStaleExpiry | protectHoldExpiry | holdOffExpiry =>
      obtain rfl := Host.Outcome.next.inj hx
      split <;> simp
    | presenceLoss _ | gaugeStaleExpiry _ | unknownRequest =>
      obtain rfl := Host.Outcome.next.inj hx
      repeat' split
      all_goals simp
    | _ => exact absurd hc (by decide)

/-- Settles O3: every arm of the dispatch answers a next state (`exec_completes`), and `exec_pending` gives its queue. -/
theorem everyCommandCompletes : Obligations.EveryCommandCompletes := by
  unfold Obligations.EveryCommandCompletes
  intro c s
  obtain ⟨t, ht⟩ := exec_completes c s
  exact ⟨t, ht, exec_pending ht⟩

end Sys2Proof.Machine
end
